-- ==== Sys2Proof/Word.lean ====
section
/-! DEFINITION. The unit of everything the block reads: the octet (00_scope.md R11). Words of other widths are
plain bit vectors of their width (R13). The helpers that assemble, slice and interpret octets are in
Machine/Operands.lean. -/

namespace Sys2Proof

/-- An octet, a natural number 0 .. 255 (R11), as the 8-bit word the buffer holds. -/
abbrev Octet := BitVec 8

/-- An octet sequence written as numbers, for frames and messages written out (R11). -/
abbrev octets (ns : List Nat) : List Octet := ns.map (BitVec.ofNat 8)

end Sys2Proof
end

