-- ==== Sys2Proof/Config.lean ====
section
/-! DEFINITION. The message kinds (30_encoding.md R113) and the design-time parameters of the block: FRAME_MAX,
TAGMAP, QF_MODE and BNB_SCALE (00_scope.md R6 to R9). A rule takes them as an argument; none is fixed inside a rule.
They are plain data and travel in `State.params`, which no operation writes (R363; assumption 1). -/

namespace Sys2Proof

/-- The thirteen message kinds, in catalog order (R113). -/
inductive Kind where
  | beacon | joinRequest | joinConfirmation | almanac | service | fwUpdateRequest | fwUpdateData
  | position | groupPoll | response | bridgeNodeBeacon | iotDataDownlink | iotDataUplink
deriving DecidableEq, Repr

/-- The open part of TAGMAP (R7): the tags of the ten kinds the source leaves unassigned. The tags of Beacon, Almanac
and Service are fixed and stand in `tagOf`. -/
structure TagMap where
  joinRequest : Octet
  joinConfirmation : Octet
  fwUpdateRequest : Octet
  fwUpdateData : Octet
  position : Octet
  groupPoll : Octet
  response : Octet
  bridgeNodeBeacon : Octet
  iotDataDownlink : Octet
  iotDataUplink : Octet
deriving DecidableEq, Repr

/-- The ten open tags of a tag map, in catalog order. -/
def TagMap.openTags (m : TagMap) : List Octet :=
  [m.joinRequest, m.joinConfirmation, m.fwUpdateRequest, m.fwUpdateData, m.position, m.groupPoll, m.response,
   m.bridgeNodeBeacon, m.iotDataDownlink, m.iotDataUplink]

/-- The ten tag values the source lists and assigns to no kind (R7). -/
def openTagValues : List Octet :=
  [0x12#8, 0x13#8, 0x18#8, 0x21#8, 0x22#8, 0x30#8, 0x31#8, 0x63#8, 0x65#8, 0x6a#8]

/-- What R7 asks of TAGMAP: on the ten open kinds it is a bijection onto the ten unassigned values. -/
abbrev TagMap.wf (m : TagMap) : Prop := m.openTags.Perm openTagValues

/-- TAGMAP_REF (R115): the spec's reference instantiation, used by its examples and by opcode_table.json. -/
def tagmapRef : TagMap :=
  { joinRequest := 0x12#8, joinConfirmation := 0x13#8, fwUpdateRequest := 0x18#8, fwUpdateData := 0x21#8,
    position := 0x22#8, groupPoll := 0x30#8, response := 0x31#8, bridgeNodeBeacon := 0x63#8,
    iotDataDownlink := 0x65#8, iotDataUplink := 0x6a#8 }

/-- QF_MODE (R8): how the GroupPoll quality factor is derived. -/
inductive QfMode where
  | fullOctet
  | masked7
deriving DecidableEq, Repr

/-- BNB_SCALE (R9): what one unit of BridgeNodeBeacon's `tagAddressCount` stands for, one octet (scale 1) or one
2-octet address (scale 2). -/
inductive BnbScale where
  | one
  | two
deriving DecidableEq, Repr

/-- The number of octets BNB_SCALE names (R9). -/
def BnbScale.toNat : BnbScale → Nat
  | .one => 1
  | .two => 2

/-- The four design-time parameters (R6 to R9). -/
structure Params where
  frameMax : Nat
  tagmap : TagMap
  qfMode : QfMode
  bnbScale : BnbScale
deriving DecidableEq, Repr

/-- What the spec asks of the parameters: FRAME_MAX >= 5 (R6) and a tag map as R7 says. -/
abbrev Params.wf (p : Params) : Prop := 5 ≤ p.frameMax ∧ p.tagmap.wf

/-- The parameters the machine of `State.reset` is built with: TAGMAP_REF, the defaults of R8 and R9, and the value R6
suggests for FRAME_MAX. DESIGN CHOICE, assumption 2: no statement rests on them. -/
def Params.reference : Params :=
  { frameMax := 127, tagmap := tagmapRef, qfMode := .fullOctet, bnbScale := .one }

/-- MSGQ_MAX (R10): the most records one frame can hold. -/
def Params.msgqMax (p : Params) : Nat := (p.frameMax - 5) / 3

end Sys2Proof
end

