-- ==== Sys2Proof/Syntax.lean ====
section
/-! DEFINITION. The instructions: one constructor of `Instr` for each of the 31 rows of spec/opcode_table.json
(30_encoding.md R126). A message row carries the words of its fields (R117); a frame-control row is matched against the
frame-control word, and the octets that its effect reads (PAN identifiers, addresses) are read through the header cursor.
Also here: the names the format and its failures use. -/

namespace Sys2Proof

/-- The three error kinds (60_exceptions.md R320). -/
inductive DecodeError where
  | outOfRange
  | truncatedMessage
  | frameTooShort
deriving DecidableEq, Repr

/-- The frame types (10_state.md R37). -/
inductive FrameType where
  | beacon | data | acknowledgement | macCommand | reserved
deriving DecidableEq, Repr

/-- The address modes (10_state.md R39). -/
inductive AddrMode where
  | noAddress | reserved | short16 | long64
deriving DecidableEq, Repr

/-- Fields of a Beacon (R117, R231). -/
structure BeaconBody where
  sessionId : BitVec 8
  clusterFlags : BitVec 16
  sfNumber : BitVec 16
  clusterSlotNumber : BitVec 8
  clusterMap : BitVec 32
  dataSlotMap : BitVec 16
  nonce : BitVec 80
deriving DecidableEq, Repr

/-- Fields of a JoinRequest (R117, R232). -/
structure JoinRequestBody where
  hardwareVersion : BitVec 32
  firmwareVersion : BitVec 32
  firmwareChecksum : BitVec 32
  options : BitVec 32
  clusterSeat : BitVec 8
deriving DecidableEq, Repr

/-- Fields of a JoinConfirmation (R117, R233). -/
structure JoinConfirmationBody where
  address : BitVec 16
  clusterLock : BitVec 8
  clusterSeat : BitVec 8
deriving DecidableEq, Repr

/-- Fields of an Almanac (R117, R234). -/
structure AlmanacBody where
  nonce : BitVec 80
  hardwareVersion : BitVec 32
  firmwareVersion : BitVec 32
  firmware1Size : BitVec 32
  firmware2Size : BitVec 32
  firmware1Checksum : BitVec 32
  firmware2Checksum : BitVec 32
  nodeId : BitVec 64
  nodeOption : BitVec 32
deriving DecidableEq, Repr

/-- Encoded fields of a Service (R117, R264): `argCount` is the length-field octet, `arguments` the trailing buffer. -/
structure ServiceBody where
  code : BitVec 8
  argCount : Octet
  arguments : List Octet
deriving DecidableEq, Repr

/-- Encoded fields of an FwUpdateRequest (R117, R235): `updatePeriod` is the 16-bit word, read as signed when the
message is delivered. -/
structure FwUpdateRequestBody where
  flags : BitVec 8
  updatePeriod : BitVec 16
  addr0 : BitVec 16
  addr1 : BitVec 16
  addr2 : BitVec 16
  addr3 : BitVec 16
  offset : BitVec 32
  firmwareSize : BitVec 32
  firmwareChecksum : BitVec 32
deriving DecidableEq, Repr

/-- Encoded fields of an FwUpdateData (R117, R265). -/
structure FwUpdateDataBody where
  flags : BitVec 8
  slotDataMap : BitVec 16
  offset : BitVec 24
  dataLength : Octet
  buffer : List Octet
deriving DecidableEq, Repr

/-- Fields of a Position (R117, R236): `x`, `y`, `z` are IEEE-754 single-precision patterns. -/
structure PositionBody where
  x : BitVec 32
  y : BitVec 32
  z : BitVec 32
  padding : BitVec 32
deriving DecidableEq, Repr

/-- Encoded fields of a GroupPoll (R117, R237): `sq` is the combined stationary-flag and quality-factor octet. -/
structure GroupPollBody where
  flags : BitVec 16
  updatePeriod : BitVec 16
  anchorAddr0 : BitVec 16
  anchorAddr1 : BitVec 16
  anchorAddr2 : BitVec 16
  anchorAddr3 : BitVec 16
  sequenceNumber : BitVec 8
  sq : Octet
  x : BitVec 32
  y : BitVec 32
  z : BitVec 32
  padding : BitVec 16
deriving DecidableEq, Repr

/-- Fields of a Response (R117, R239). -/
structure ResponseBody where
  flags : BitVec 8
  slotMap : BitVec 16
  gpTimestamp : BitVec 32
  rTimestamp : BitVec 32
  nonce : BitVec 80
deriving DecidableEq, Repr

/-- Encoded fields of a BridgeNodeBeacon (R117, R266). -/
structure BridgeNodeBeaconBody where
  clusterMap : BitVec 32
  address : BitVec 16
  bnClusterLock : BitVec 8
  bnClusterSeat : BitVec 8
  tagAddressCount : Octet
  tagAddresses : List Octet
deriving DecidableEq, Repr

/-- Encoded fields of an IotDataDownlink or IotDataUplink, one layout for both (R117, R268, R269). -/
structure IotDataBody where
  id : BitVec 16
  flags : BitVec 8
  updateRate : BitVec 16
  dataLength : Octet
  iotPayload : List Octet
deriving DecidableEq, Repr

/-- The rows of spec/opcode_table.json, in the table's order. -/
inductive Instr where
  -- message kinds, matched against the octet at the region cursor (R116, R202)
  | beacon (m : BeaconBody)
  | joinRequest (m : JoinRequestBody)
  | joinConfirmation (m : JoinConfirmationBody)
  | almanac (m : AlmanacBody)
  | service (m : ServiceBody)
  | fwUpdateRequest (m : FwUpdateRequestBody)
  | fwUpdateData (m : FwUpdateDataBody)
  | position (m : PositionBody)
  | groupPoll (m : GroupPollBody)
  | response (m : ResponseBody)
  | bridgeNodeBeacon (m : BridgeNodeBeaconBody)
  | iotDataDownlink (m : IotDataBody)
  | iotDataUplink (m : IotDataBody)
  -- the whole frame-control word (R102, R160)
  | frameControl (fcw : BitVec 16)
  -- frame types, FCW[2:0] (R103, R161); the Reserved row keeps its raw code
  | ftBeacon
  | ftData
  | ftAcknowledgement
  | ftMacCommand
  | ftReserved (raw : BitVec 3)
  -- flags set in FCW[6:3] (R163)
  | flagSec
  | flagFp
  | flagAr
  | flagPic
  -- destination address modes, FCW[11:10] (R104, R162)
  | damNoAddress
  | damReserved
  | damShort16
  | damLong64
  -- source address modes, FCW[15:14] (R104, R162)
  | samNoAddress
  | samReserved
  | samShort16
  | samLong64
deriving DecidableEq, Repr

/-- The kind of a message row; `none` for the rows matched against the frame-control word. -/
def Instr.kind? : Instr → Option Kind
  | .beacon _ => some .beacon
  | .joinRequest _ => some .joinRequest
  | .joinConfirmation _ => some .joinConfirmation
  | .almanac _ => some .almanac
  | .service _ => some .service
  | .fwUpdateRequest _ => some .fwUpdateRequest
  | .fwUpdateData _ => some .fwUpdateData
  | .position _ => some .position
  | .groupPoll _ => some .groupPoll
  | .response _ => some .response
  | .bridgeNodeBeacon _ => some .bridgeNodeBeacon
  | .iotDataDownlink _ => some .iotDataDownlink
  | .iotDataUplink _ => some .iotDataUplink
  | .frameControl _ => none
  | .ftBeacon => none
  | .ftData => none
  | .ftAcknowledgement => none
  | .ftMacCommand => none
  | .ftReserved _ => none
  | .flagSec => none
  | .flagFp => none
  | .flagAr => none
  | .flagPic => none
  | .damNoAddress => none
  | .damReserved => none
  | .damShort16 => none
  | .damLong64 => none
  | .samNoAddress => none
  | .samReserved => none
  | .samShort16 => none
  | .samLong64 => none

end Sys2Proof
end

