-- ==== Sys2Proof/Machine/Operands.lean ====
section
/-! DEFINITION. The first functional unit: the bit and octet primitives with endianness control (40_primitives.md R140
to R153), the notation they rest on (00_scope.md R13 to R16), the field readers of the message rules (R150) and the two
named conversions of message fields (R238, R267). All are pure functions of their operands (R153). -/

namespace Sys2Proof.Machine

/-! ## Words of octets (R13 to R16) -/

/-- `LE(B)` (R13): the octet at the lowest index is least significant. -/
def LE : List Octet → Nat
  | [] => 0
  | o :: os => o.toNat + 256 * LE os

/-- `BE(B)` (R13): the octet at the lowest index is most significant; `BE(B) = LE(rev(B))`. -/
def BE (os : List Octet) : Nat := LE os.reverse

/-- The `w` octets of a number, least significant first: the little-endian rendering of a field (R230). -/
def littleOctets : (w : Nat) → (v : Nat) → List Octet
  | 0, _ => []
  | w + 1, v => BitVec.ofNat 8 v :: littleOctets w (v / 256)

/-- `W[hi:lo]` (R14). -/
def wordBits {n : Nat} (W : BitVec n) (hi lo : Nat) : BitVec (hi - lo + 1) := W.extractLsb' lo (hi - lo + 1)

/-- The bit string of a word (R15): position `p` holds `W[N-1-p]`. -/
def bitString {n : Nat} (W : BitVec n) : List Bool := (List.range n).map fun p => W.getLsbD (n - 1 - p)

/-- `signed_N(W)` (R16): two's complement. PRESUMED by the spec itself (93 G1; assumption 14). -/
def signedOf {n : Nat} (W : BitVec n) : Int :=
  if W.toNat < 2 ^ (n - 1) then (W.toNat : Int) else (W.toNat : Int) - 2 ^ n

/-- `sext_M(W)` (R16): the word of width `m` equal to `signed_N(W) mod 2^m`. -/
def signExtend {n : Nat} (m : Nat) (W : BitVec n) : BitVec m := BitVec.ofInt m (signedOf W)

/-- `zext_M(W)` (R16): `W` taken at width `m`. -/
def zeroExtend {n : Nat} (m : Nat) (W : BitVec n) : BitVec m := BitVec.ofNat m W.toNat

/-! ## The four primitives -/

/-- The explicit byte order of a primitive (R76). -/
inductive ByteOrder where
  | big
  | little
deriving DecidableEq, Repr

/-- The word of an octet sequence under an order (R140, R146). -/
def orderedValue (order : ByteOrder) (os : List Octet) : Nat :=
  match order with
  | .big => BE os
  | .little => LE os

/-- OCT2BITS (R140): reassembles the first `count` octets into one word. -/
def oct2bits (os : List Octet) (count : Nat) (order : ByteOrder) : Except DecodeError (BitVec (8 * count)) :=
  if os.length < count then .error .outOfRange
  else .ok (BitVec.ofNat (8 * count) (orderedValue order (os.take count)))

/-- Why a SLICEBITS call gives no word: the span is out of range, or the call names a width that is not the word's,
which R142 puts outside the contract and asks a model to refuse. -/
inductive SliceFailure where
  | outOfRange
  | widthMismatch
deriving DecidableEq, Repr

/-- SLICEBITS (R141, R142): an inclusive bit range, numbered from the least significant bit or, with `fromLsb` clear,
from the left end of the bit string. -/
def sliceBits {n : Nat} (W : BitVec n) (start stop total : Nat) (fromLsb : Bool) :
    Except SliceFailure (BitVec (stop - start + 1)) :=
  if total ≠ n then .error .widthMismatch
  else if n ≤ stop ∨ stop < start then .error .outOfRange
  else if fromLsb then .ok (W.extractLsb' start (stop - start + 1))
  else .ok (W.extractLsb' (n - 1 - stop) (stop - start + 1))

/-- SLICEOCT (R143): `count` octets from `start`, reversed for the little order. -/
def sliceOct (data : List Octet) (start count : Nat) (order : ByteOrder) : Except DecodeError (List Octet) :=
  if data.length < start + count then .error .outOfRange
  else match order with
    | .big => .ok ((data.drop start).take count)
    | .little => .ok ((data.drop start).take count).reverse

/-- NUMDEC, unsigned (R146, R148): the word of the first `w` octets. -/
def numdecUnsigned (os : List Octet) (w : Nat) (order : ByteOrder) : Except DecodeError (BitVec (8 * w)) :=
  if os.length < w then .error .outOfRange
  else .ok (BitVec.ofNat (8 * w) (orderedValue order (os.take w)))

/-- NUMDEC, signed (R147). -/
def numdecSigned (os : List Octet) (w : Nat) (order : ByteOrder) : Except DecodeError Int :=
  (numdecUnsigned os w order).map signedOf

/-- NUMDEC, float (R149): the 32-bit pattern, unchanged. -/
def numdecFloat (os : List Octet) (order : ByteOrder) : Except DecodeError (BitVec 32) :=
  numdecUnsigned os 4 order

/-- The number an IEEE-754 single-precision pattern denotes (R149): `(-1)^negative * significand * 2^exponent`, an
infinity, or a NaN with its fraction. PRESUMED by the spec itself (93 G2; assumption 15); nothing in the block reads it. -/
inductive FloatView where
  | finite (negative : Bool) (significand : Nat) (exponent : Int)
  | infinity (negative : Bool)
  | nan (negative : Bool) (fraction : BitVec 23)
deriving DecidableEq, Repr

/-- The view of a pattern (R149): bit 31 sign, bits 30:23 exponent, bits 22:0 fraction. -/
def floatView (P : BitVec 32) : FloatView :=
  let s := P.getLsbD 31
  let e := (wordBits P 30 23).toNat
  let f := wordBits P 22 0
  if e = 255 then (if f.toNat = 0 then .infinity s else .nan s f)
  else if e = 0 then .finite s f.toNat (-149)
  else .finite s (2 ^ 23 + f.toNat) ((e : Int) - 150)

/-! ## Field readers (R150)

A reader takes the octets of the region from a message's tag onward, so that message offset `off` is index `off`. -/

/-- `FieldW` (R150): the little-endian word of `w` octets at message offset `off`. -/
def fieldW (r : List Octet) (off w : Nat) : BitVec (8 * w) := BitVec.ofNat (8 * w) (LE ((r.drop off).take w))

/-- `FieldS` (R150): the same word read as signed. -/
def fieldS (r : List Octet) (off w : Nat) : Int := signedOf (fieldW r off w)

/-- `FieldF` (R150): a 32-bit pattern. -/
def fieldF (r : List Octet) (off : Nat) : BitVec 32 := fieldW r off 4

/-- `FieldFlags` (R150): the word whose bit `k` is flag `k`. -/
def fieldFlags (r : List Octet) (off w : Nat) : BitVec (8 * w) := fieldW r off w

/-- `FieldBuf` (R150): `n` octets in source order. -/
def fieldBuf (r : List Octet) (off n : Nat) : List Octet := (r.drop off).take n

/-! ## Conversions of message fields -/

/-- SplitSQ (R238): the stationary flag, bit 7, and the quality factor, the full octet or its low seven bits. -/
def splitSQ (mode : QfMode) (sq : Octet) : Bool × Nat :=
  (sq.getLsbD 7,
   match mode with
   | .fullOctet => sq.toNat
   | .masked7 => (wordBits sq 6 0).toNat)

/-- The 2-octet addresses of TagAddrView (R267). -/
def tagAddressList : List Octet → List (BitVec 16)
  | a :: b :: rest => BitVec.ofNat 16 (LE [a, b]) :: tagAddressList rest
  | _ => []

/-- The leftover of TagAddrView (R267): the last octet of an odd number, else nothing. -/
def tagAddressLeftover : List Octet → List Octet
  | _ :: _ :: rest => tagAddressLeftover rest
  | rest => rest

end Sys2Proof.Machine
end

