-- ==== Sys2Proof/WellFormed.lean ====
section
/-! DEFINITION. What makes an instruction well formed: a Reserved frame-type row carries one of the four Reserved codes
(30_encoding.md R103); a variable-length message carries a non-negative length field (R118, 43_dispatcher.md R209) and a
trailing buffer of exactly the length that field gives (R262). Every other row is well formed with any operand values
(44_messages_fixed.md R230). -/

namespace Sys2Proof

/-- The raw frame type is one of 4, 5, 6, 7 (R103). -/
def reservedTypeCode (raw : BitVec 3) : Bool := decide (4 ≤ raw.toNat)

/-- The signed 8-bit length field is not negative: its octet is below 0x80 (R118). -/
def lengthFieldNonNegative (lf : Octet) : Bool := decide (lf.toNat < 128)

/-- The trailing buffer has `scale` octets for each unit of the length field (R262). -/
def bufferFits (scale : Nat) (lf : Octet) (buf : List Octet) : Bool := buf.length == scale * lf.toNat

/-- The two checks of a variable-length message. -/
def trailingPartOk (scale : Nat) (lf : Octet) (buf : List Octet) : Bool :=
  lengthFieldNonNegative lf && bufferFits scale lf buf

/-- Well-formed instructions, for the parameters of the block (only BNB_SCALE matters, R266). -/
def WellFormed (p : Params) : Instr → Bool
  | .beacon _ => true
  | .joinRequest _ => true
  | .joinConfirmation _ => true
  | .almanac _ => true
  | .service m => trailingPartOk 1 m.argCount m.arguments
  | .fwUpdateRequest _ => true
  | .fwUpdateData m => trailingPartOk 1 m.dataLength m.buffer
  | .position _ => true
  | .groupPoll _ => true
  | .response _ => true
  | .bridgeNodeBeacon m => trailingPartOk p.bnbScale.toNat m.tagAddressCount m.tagAddresses
  | .iotDataDownlink m => trailingPartOk 1 m.dataLength m.iotPayload
  | .iotDataUplink m => trailingPartOk 1 m.dataLength m.iotPayload
  | .frameControl _ => true
  | .ftBeacon => true
  | .ftData => true
  | .ftAcknowledgement => true
  | .ftMacCommand => true
  | .ftReserved raw => reservedTypeCode raw
  | .flagSec => true
  | .flagFp => true
  | .flagAr => true
  | .flagPic => true
  | .damNoAddress => true
  | .damReserved => true
  | .damShort16 => true
  | .damLong64 => true
  | .samNoAddress => true
  | .samReserved => true
  | .samShort16 => true
  | .samLong64 => true

end Sys2Proof
end

