-- ==== Sys2Proof/Decode.lean ====
section
/-! DEFINITION. Decoding and encoding: the message catalog and the tag match (43_dispatcher.md R200 to R202), the length
policies (30_encoding.md R114), the field extraction of every message kind (R117), the frame-control word (41_frame_control.md
R160 to R165), the header length (42_mac_header.md R190), and the encoder from the same tables. Decoding is total: octets
that start no message are named filler (R120), and a message whose octets run out still decodes to its row, whose meaning
then takes TruncatedMessage before any field is used (R209; assumption 13). -/

namespace Sys2Proof

open Sys2Proof.Machine

/-! ## The catalog -/

/-- TAGMAP (R7) of a kind: Beacon, Almanac and Service as the source fixes them, the others from the parameter. -/
def tagOf (m : TagMap) : Kind → Octet
  | .beacon => 0x10#8
  | .joinRequest => m.joinRequest
  | .joinConfirmation => m.joinConfirmation
  | .almanac => 0x23#8
  | .service => 0x23#8
  | .fwUpdateRequest => m.fwUpdateRequest
  | .fwUpdateData => m.fwUpdateData
  | .position => m.position
  | .groupPoll => m.groupPoll
  | .response => m.response
  | .bridgeNodeBeacon => m.bridgeNodeBeacon
  | .iotDataDownlink => m.iotDataDownlink
  | .iotDataUplink => m.iotDataUplink

/-- The catalog in its fixed order (R200, R201): Almanac and Service exchanged when `CFG.T23 = 1`. -/
def catalog (t23 : Bool) : List Kind :=
  [.beacon, .joinRequest, .joinConfirmation] ++
  (if t23 then [Kind.service, Kind.almanac] else [Kind.almanac, Kind.service]) ++
  [.fwUpdateRequest, .fwUpdateData, .position, .groupPoll, .response, .bridgeNodeBeacon, .iotDataDownlink, .iotDataUplink]

/-- `Match(t, T23)` (R202): the first descriptor in catalog order whose tag equals the whole octet. -/
def matchTag (m : TagMap) (t23 : Bool) (t : Octet) : Option Kind := (catalog t23).find? fun k => tagOf m k == t

/-- A length policy (R111). -/
inductive Policy where
  | fixed (n : Nat)
  | variable (headerLength lengthFieldOffset : Nat)
deriving DecidableEq, Repr

/-- The length policy of each kind (R114). -/
def policy : Kind → Policy
  | .beacon => .fixed 23
  | .joinRequest => .fixed 18
  | .joinConfirmation => .fixed 5
  | .almanac => .fixed 47
  | .service => .variable 3 2
  | .fwUpdateRequest => .fixed 24
  | .fwUpdateData => .variable 8 7
  | .position => .fixed 17
  | .groupPoll => .fixed 29
  | .response => .fixed 22
  | .bridgeNodeBeacon => .variable 10 9
  | .iotDataDownlink => .variable 7 6
  | .iotDataUplink => .variable 7 6

/-- `scale(k)` (R203): BNB_SCALE for BridgeNodeBeacon, else 1. -/
def lengthScale (p : Params) : Kind → Nat
  | .bridgeNodeBeacon => p.bnbScale.toNat
  | _ => 1

/-- `MsgLen` (R203, R208, R209): the total length of a message of kind `k` with `rem` region octets from its tag on, or
the error it raises. `lf` is the octet at the kind's length-field offset; it is looked at only in test (b), after test (a)
has found the header portion inside the region. -/
def msgLen (p : Params) (k : Kind) (rem : Nat) (lf : Octet) : Except DecodeError Nat :=
  match policy k with
  | .fixed n => if rem < n then .error .truncatedMessage else .ok n
  | .variable h _ =>
    if rem < h then .error .truncatedMessage
    else if signedOf lf < 0 then .error .outOfRange
    else
      let total := h + lengthScale p k * (signedOf lf).toNat
      if rem < total then .error .truncatedMessage else .ok total

/-! ## Field extraction (R117) -/

/-- The trailing buffer that a length field announces, from message offset `h` (R262); nothing for a negative field. -/
def trailingBuffer (r : List Octet) (h scale : Nat) (lf : Octet) : List Octet :=
  fieldBuf r h (scale * (signedOf lf).toNat)

/-- Beacon (R231). -/
def decodeBeacon (r : List Octet) : BeaconBody :=
  { sessionId := fieldW r 1 1, clusterFlags := fieldFlags r 2 2, sfNumber := fieldW r 4 2,
    clusterSlotNumber := fieldW r 6 1, clusterMap := fieldFlags r 7 4, dataSlotMap := fieldFlags r 11 2,
    nonce := fieldW r 13 10 }

/-- JoinRequest (R232). -/
def decodeJoinRequest (r : List Octet) : JoinRequestBody :=
  { hardwareVersion := fieldW r 1 4, firmwareVersion := fieldW r 5 4, firmwareChecksum := fieldW r 9 4,
    options := fieldFlags r 13 4, clusterSeat := fieldFlags r 17 1 }

/-- JoinConfirmation (R233). -/
def decodeJoinConfirmation (r : List Octet) : JoinConfirmationBody :=
  { address := fieldW r 1 2, clusterLock := fieldW r 3 1, clusterSeat := fieldW r 4 1 }

/-- Almanac (R234). -/
def decodeAlmanac (r : List Octet) : AlmanacBody :=
  { nonce := fieldW r 1 10, hardwareVersion := fieldW r 11 4, firmwareVersion := fieldW r 15 4,
    firmware1Size := fieldW r 19 4, firmware2Size := fieldW r 23 4, firmware1Checksum := fieldW r 27 4,
    firmware2Checksum := fieldW r 31 4, nodeId := fieldW r 35 8, nodeOption := fieldFlags r 43 4 }

/-- Service (R264). -/
def decodeService (r : List Octet) : ServiceBody :=
  let lf : Octet := fieldW r 2 1
  { code := fieldW r 1 1, argCount := lf, arguments := trailingBuffer r 3 1 lf }

/-- FwUpdateRequest (R235). -/
def decodeFwUpdateRequest (r : List Octet) : FwUpdateRequestBody :=
  { flags := fieldW r 1 1, updatePeriod := fieldW r 2 2, addr0 := fieldW r 4 2, addr1 := fieldW r 6 2,
    addr2 := fieldW r 8 2, addr3 := fieldW r 10 2, offset := fieldW r 12 4, firmwareSize := fieldW r 16 4,
    firmwareChecksum := fieldW r 20 4 }

/-- FwUpdateData (R265). -/
def decodeFwUpdateData (r : List Octet) : FwUpdateDataBody :=
  let lf : Octet := fieldW r 7 1
  { flags := fieldW r 1 1, slotDataMap := fieldW r 2 2, offset := fieldW r 4 3, dataLength := lf,
    buffer := trailingBuffer r 8 1 lf }

/-- Position (R236). -/
def decodePosition (r : List Octet) : PositionBody :=
  { x := fieldF r 1, y := fieldF r 5, z := fieldF r 9, padding := fieldW r 13 4 }

/-- GroupPoll (R237). -/
def decodeGroupPoll (r : List Octet) : GroupPollBody :=
  { flags := fieldFlags r 1 2, updatePeriod := fieldW r 3 2, anchorAddr0 := fieldW r 5 2, anchorAddr1 := fieldW r 7 2,
    anchorAddr2 := fieldW r 9 2, anchorAddr3 := fieldW r 11 2, sequenceNumber := fieldW r 13 1, sq := fieldW r 14 1,
    x := fieldF r 15, y := fieldF r 19, z := fieldF r 23, padding := fieldW r 27 2 }

/-- Response (R239). -/
def decodeResponse (r : List Octet) : ResponseBody :=
  { flags := fieldFlags r 1 1, slotMap := fieldFlags r 2 2, gpTimestamp := fieldW r 4 4, rTimestamp := fieldW r 8 4,
    nonce := fieldW r 12 10 }

/-- BridgeNodeBeacon (R266). -/
def decodeBridgeNodeBeacon (p : Params) (r : List Octet) : BridgeNodeBeaconBody :=
  let lf : Octet := fieldW r 9 1
  { clusterMap := fieldFlags r 1 4, address := fieldW r 5 2, bnClusterLock := fieldW r 7 1, bnClusterSeat := fieldW r 8 1,
    tagAddressCount := lf, tagAddresses := trailingBuffer r 10 p.bnbScale.toNat lf }

/-- IotDataDownlink and IotDataUplink (R268, R269). -/
def decodeIotData (r : List Octet) : IotDataBody :=
  let lf : Octet := fieldW r 6 1
  { id := fieldW r 1 2, flags := fieldFlags r 3 1, updateRate := fieldW r 4 2, dataLength := lf,
    iotPayload := trailingBuffer r 7 1 lf }

/-- The row of a matched kind, its fields read from the octets `r` that begin with the tag. -/
def decodeMessage (p : Params) (k : Kind) (r : List Octet) : Instr :=
  match k with
  | .beacon => .beacon (decodeBeacon r)
  | .joinRequest => .joinRequest (decodeJoinRequest r)
  | .joinConfirmation => .joinConfirmation (decodeJoinConfirmation r)
  | .almanac => .almanac (decodeAlmanac r)
  | .service => .service (decodeService r)
  | .fwUpdateRequest => .fwUpdateRequest (decodeFwUpdateRequest r)
  | .fwUpdateData => .fwUpdateData (decodeFwUpdateData r)
  | .position => .position (decodePosition r)
  | .groupPoll => .groupPoll (decodeGroupPoll r)
  | .response => .response (decodeResponse r)
  | .bridgeNodeBeacon => .bridgeNodeBeacon (decodeBridgeNodeBeacon p r)
  | .iotDataDownlink => .iotDataDownlink (decodeIotData r)
  | .iotDataUplink => .iotDataUplink (decodeIotData r)

/-- What the octets at the region cursor are. -/
inductive Decoded where
  /-- a catalog entry matched (R210) -/
  | instr (i : Instr)
  /-- the leading octet equals no tag: filler, skipped without error (R120, R211) -/
  | filler (t : Octet)
  /-- no octet is left in the region (R212) -/
  | endOfRegion
deriving DecidableEq, Repr

/-- Decoding at the region cursor: `r` is the region from the cursor to its end. -/
def decodeRegion (p : Params) (t23 : Bool) (r : List Octet) : Decoded :=
  match r with
  | [] => .endOfRegion
  | t :: _ =>
    match matchTag p.tagmap t23 t with
    | none => .filler t
    | some k => .instr (decodeMessage p k r)

/-! ## The frame-control word -/

/-- `FrameTypeOf` (R161). -/
def frameTypeOf (v : BitVec 3) : FrameType :=
  match v.toNat with
  | 0 => .beacon
  | 1 => .data
  | 2 => .acknowledgement
  | 3 => .macCommand
  | _ => .reserved

/-- The address mode of a 2-bit value (R162). -/
def addrModeOf (v : BitVec 2) : AddrMode :=
  match v.toNat with
  | 0 => .noAddress
  | 1 => .reserved
  | 2 => .short16
  | _ => .long64

/-- The result of DecodeFC (R160). -/
structure FrameControl where
  fcw : BitVec 16
  ft : FrameType
  sec : Bool
  fp : Bool
  ar : Bool
  pic : Bool
  dam : AddrMode
  fv : BitVec 2
  sam : AddrMode
deriving DecidableEq, Repr

/-- The fields of a frame-control word (R102, R160). -/
def decodeWord (fcw : BitVec 16) : FrameControl :=
  { fcw := fcw, ft := frameTypeOf (wordBits fcw 2 0), sec := fcw.getLsbD 3, fp := fcw.getLsbD 4, ar := fcw.getLsbD 5,
    pic := fcw.getLsbD 6, dam := addrModeOf (wordBits fcw 11 10), fv := wordBits fcw 13 12,
    sam := addrModeOf (wordBits fcw 15 14) }

/-- DecodeFC (R160): the word of the two octets, low octet first, and its fields. -/
def decodeFC (o0 o1 : Octet) : FrameControl := decodeWord (BitVec.ofNat 16 (LE [o0, o1]))

/-- The frame-type row the word matches (R103). -/
def frameTypeRow (fcw : BitVec 16) : Instr :=
  match (wordBits fcw 2 0).toNat with
  | 0 => .ftBeacon
  | 1 => .ftData
  | 2 => .ftAcknowledgement
  | 3 => .ftMacCommand
  | _ => .ftReserved (wordBits fcw 2 0)

/-- The flag rows the word matches (R163): one for each flag bit that is set. -/
def flagRows (fcw : BitVec 16) : List Instr :=
  (if fcw.getLsbD 3 then [Instr.flagSec] else []) ++ (if fcw.getLsbD 4 then [Instr.flagFp] else []) ++
  (if fcw.getLsbD 5 then [Instr.flagAr] else []) ++ (if fcw.getLsbD 6 then [Instr.flagPic] else [])

/-- The destination-mode row the word matches (R104). -/
def destinationRow (fcw : BitVec 16) : Instr :=
  match addrModeOf (wordBits fcw 11 10) with
  | .noAddress => .damNoAddress
  | .reserved => .damReserved
  | .short16 => .damShort16
  | .long64 => .damLong64

/-- The source-mode row the word matches (R104). -/
def sourceRow (fcw : BitVec 16) : Instr :=
  match addrModeOf (wordBits fcw 15 14) with
  | .noAddress => .samNoAddress
  | .reserved => .samReserved
  | .short16 => .samShort16
  | .long64 => .samLong64

/-- The rows that decode the word itself: the whole word, its frame type, its flags (R181). -/
def controlRows (fcw : BitVec 16) : List Instr := .frameControl fcw :: frameTypeRow fcw :: flagRows fcw

/-- The rows that walk the addressing fields, destination before source (R183 to R187). -/
def addressRows (fcw : BitVec 16) : List Instr := [destinationRow fcw, sourceRow fcw]

/-- Every row of the table that the word matches (R126: several match at once, and that is intended). -/
def decodeFrameControl (fcw : BitVec 16) : List Instr := controlRows fcw ++ addressRows fcw

/-- Octets the destination fields take (R105, R190). -/
def destinationLength : AddrMode → Nat
  | .noAddress => 0
  | .reserved => 0
  | .short16 => 4
  | .long64 => 10

/-- Octets the source fields take (R105, R190). -/
def sourceLength (pic : Bool) : AddrMode → Nat
  | .noAddress => 0
  | .reserved => 0
  | .short16 => (if pic then 0 else 2) + 2
  | .long64 => (if pic then 0 else 2) + 8

/-- `HeaderLen` (R190), as a function of the frame-control word. -/
def headerLen (fcw : BitVec 16) : Nat :=
  let fc := decodeWord fcw
  3 + destinationLength fc.dam + sourceLength fc.pic fc.sam

/-! ## The encoder -/

/-- The octets of a well-formed instruction, from the encoding tables: a message is its tag and its fields in offset order,
little-endian, then its trailing buffer (R110, R117); a frame-control row is the word that carries its code and nothing
else (R102 to R104), low octet first. -/
def encode (p : Params) : Instr → List Octet
  | .beacon m => tagOf p.tagmap .beacon :: (littleOctets 1 m.sessionId.toNat ++ littleOctets 2 m.clusterFlags.toNat ++
      littleOctets 2 m.sfNumber.toNat ++ littleOctets 1 m.clusterSlotNumber.toNat ++ littleOctets 4 m.clusterMap.toNat ++
      littleOctets 2 m.dataSlotMap.toNat ++ littleOctets 10 m.nonce.toNat)
  | .joinRequest m => tagOf p.tagmap .joinRequest :: (littleOctets 4 m.hardwareVersion.toNat ++
      littleOctets 4 m.firmwareVersion.toNat ++ littleOctets 4 m.firmwareChecksum.toNat ++ littleOctets 4 m.options.toNat ++
      littleOctets 1 m.clusterSeat.toNat)
  | .joinConfirmation m => tagOf p.tagmap .joinConfirmation :: (littleOctets 2 m.address.toNat ++
      littleOctets 1 m.clusterLock.toNat ++ littleOctets 1 m.clusterSeat.toNat)
  | .almanac m => tagOf p.tagmap .almanac :: (littleOctets 10 m.nonce.toNat ++ littleOctets 4 m.hardwareVersion.toNat ++
      littleOctets 4 m.firmwareVersion.toNat ++ littleOctets 4 m.firmware1Size.toNat ++ littleOctets 4 m.firmware2Size.toNat ++
      littleOctets 4 m.firmware1Checksum.toNat ++ littleOctets 4 m.firmware2Checksum.toNat ++ littleOctets 8 m.nodeId.toNat ++
      littleOctets 4 m.nodeOption.toNat)
  | .service m => tagOf p.tagmap .service :: (littleOctets 1 m.code.toNat ++ littleOctets 1 m.argCount.toNat ++ m.arguments)
  | .fwUpdateRequest m => tagOf p.tagmap .fwUpdateRequest :: (littleOctets 1 m.flags.toNat ++
      littleOctets 2 m.updatePeriod.toNat ++ littleOctets 2 m.addr0.toNat ++ littleOctets 2 m.addr1.toNat ++
      littleOctets 2 m.addr2.toNat ++ littleOctets 2 m.addr3.toNat ++ littleOctets 4 m.offset.toNat ++
      littleOctets 4 m.firmwareSize.toNat ++ littleOctets 4 m.firmwareChecksum.toNat)
  | .fwUpdateData m => tagOf p.tagmap .fwUpdateData :: (littleOctets 1 m.flags.toNat ++ littleOctets 2 m.slotDataMap.toNat ++
      littleOctets 3 m.offset.toNat ++ littleOctets 1 m.dataLength.toNat ++ m.buffer)
  | .position m => tagOf p.tagmap .position :: (littleOctets 4 m.x.toNat ++ littleOctets 4 m.y.toNat ++
      littleOctets 4 m.z.toNat ++ littleOctets 4 m.padding.toNat)
  | .groupPoll m => tagOf p.tagmap .groupPoll :: (littleOctets 2 m.flags.toNat ++ littleOctets 2 m.updatePeriod.toNat ++
      littleOctets 2 m.anchorAddr0.toNat ++ littleOctets 2 m.anchorAddr1.toNat ++ littleOctets 2 m.anchorAddr2.toNat ++
      littleOctets 2 m.anchorAddr3.toNat ++ littleOctets 1 m.sequenceNumber.toNat ++ littleOctets 1 m.sq.toNat ++
      littleOctets 4 m.x.toNat ++ littleOctets 4 m.y.toNat ++ littleOctets 4 m.z.toNat ++ littleOctets 2 m.padding.toNat)
  | .response m => tagOf p.tagmap .response :: (littleOctets 1 m.flags.toNat ++ littleOctets 2 m.slotMap.toNat ++
      littleOctets 4 m.gpTimestamp.toNat ++ littleOctets 4 m.rTimestamp.toNat ++ littleOctets 10 m.nonce.toNat)
  | .bridgeNodeBeacon m => tagOf p.tagmap .bridgeNodeBeacon :: (littleOctets 4 m.clusterMap.toNat ++
      littleOctets 2 m.address.toNat ++ littleOctets 1 m.bnClusterLock.toNat ++ littleOctets 1 m.bnClusterSeat.toNat ++
      littleOctets 1 m.tagAddressCount.toNat ++ m.tagAddresses)
  | .iotDataDownlink m => tagOf p.tagmap .iotDataDownlink :: (littleOctets 2 m.id.toNat ++ littleOctets 1 m.flags.toNat ++
      littleOctets 2 m.updateRate.toNat ++ littleOctets 1 m.dataLength.toNat ++ m.iotPayload)
  | .iotDataUplink m => tagOf p.tagmap .iotDataUplink :: (littleOctets 2 m.id.toNat ++ littleOctets 1 m.flags.toNat ++
      littleOctets 2 m.updateRate.toNat ++ littleOctets 1 m.dataLength.toNat ++ m.iotPayload)
  | .frameControl fcw => littleOctets 2 fcw.toNat
  | .ftBeacon => littleOctets 2 0x0000
  | .ftData => littleOctets 2 0x0001
  | .ftAcknowledgement => littleOctets 2 0x0002
  | .ftMacCommand => littleOctets 2 0x0003
  | .ftReserved raw => littleOctets 2 raw.toNat
  | .flagSec => littleOctets 2 0x0008
  | .flagFp => littleOctets 2 0x0010
  | .flagAr => littleOctets 2 0x0020
  | .flagPic => littleOctets 2 0x0040
  | .damNoAddress => littleOctets 2 0x0000
  | .damReserved => littleOctets 2 0x0400
  | .damShort16 => littleOctets 2 0x0800
  | .damLong64 => littleOctets 2 0x0c00
  | .samNoAddress => littleOctets 2 0x0000
  | .samReserved => littleOctets 2 0x4000
  | .samShort16 => littleOctets 2 0x8000
  | .samLong64 => littleOctets 2 0xc000

/-- The number of octets of a well-formed instruction's encoding: the message's total length under its policy (R114), two
for a row of the frame-control word. -/
def encodedLength (p : Params) : Instr → Nat
  | .beacon _ => 23
  | .joinRequest _ => 18
  | .joinConfirmation _ => 5
  | .almanac _ => 47
  | .service m => 3 + m.argCount.toNat
  | .fwUpdateRequest _ => 24
  | .fwUpdateData m => 8 + m.dataLength.toNat
  | .position _ => 17
  | .groupPoll _ => 29
  | .response _ => 22
  | .bridgeNodeBeacon m => 10 + p.bnbScale.toNat * m.tagAddressCount.toNat
  | .iotDataDownlink m => 7 + m.dataLength.toNat
  | .iotDataUplink m => 7 + m.dataLength.toNat
  | .frameControl _ => 2
  | .ftBeacon => 2
  | .ftData => 2
  | .ftAcknowledgement => 2
  | .ftMacCommand => 2
  | .ftReserved _ => 2
  | .flagSec => 2
  | .flagFp => 2
  | .flagAr => 2
  | .flagPic => 2
  | .damNoAddress => 2
  | .damReserved => 2
  | .damShort16 => 2
  | .damLong64 => 2
  | .samNoAddress => 2
  | .samReserved => 2
  | .samShort16 => 2
  | .samLong64 => 2

/-! ## The host's reading of one table row (assumption 12) -/

/-- Whether a table row of `nbits` bits with the word `w` is a message row: an 8-bit row whose octet is a tag, or a row
wider than the frame-control word that begins with one. The table's other rows are matched against the word `FCW`. -/
def isMessageWord (m : TagMap) (t23 : Bool) (nbits w : Nat) : Bool :=
  (decide (nbits = 8) || decide (16 < nbits)) && (matchTag m t23 (BitVec.ofNat 8 w)).isSome

/-- The one row named for a frame-control word, which matches several: the row whose field holds the word's most
significant set bit; for the zero word the 8-bit row is FT.Beacon and the 16-bit row DAM.NoAddress. -/
def principalRow (nbits : Nat) (fcw : BitVec 16) : Instr :=
  if wordBits fcw 15 14 ≠ 0 then sourceRow fcw
  else if wordBits fcw 13 12 ≠ 0 then .frameControl fcw
  else if wordBits fcw 11 10 ≠ 0 then destinationRow fcw
  else if wordBits fcw 9 7 ≠ 0 then .frameControl fcw
  else if fcw.getLsbD 6 then .flagPic
  else if fcw.getLsbD 5 then .flagAr
  else if fcw.getLsbD 4 then .flagFp
  else if fcw.getLsbD 3 then .flagSec
  else if wordBits fcw 2 0 ≠ 0 then frameTypeRow fcw
  else if nbits ≤ 8 then .ftBeacon
  else .damNoAddress

/-- The octets of a row's bits, `max nbits 376` of them, the least significant first; those above `nbits` are 0. -/
def rowOctets (nbits w : Nat) : List Octet := littleOctets (max ((nbits + 7) / 8) 47) (w % 2 ^ nbits)

/-- What the decoder reads from a table row's bits, under the reference parameters and `CFG.T23 = 0` (assumption 12). A
row to which the table gives no bits is the whole frame-control word. -/
def decodeTableWord (nbits w : Nat) : Option Instr :=
  if isMessageWord Params.reference.tagmap false nbits w then
    match decodeRegion Params.reference false (rowOctets nbits w) with
    | .instr i => some i
    | .filler _ => none
    | .endOfRegion => none
  else if nbits = 0 then some (.frameControl (BitVec.ofNat 16 w))
  else if nbits ≤ 16 then some (principalRow nbits (BitVec.ofNat 16 (w % 2 ^ nbits)))
  else none

end Sys2Proof
end

