-- ==== Sys2Proof/Machine/State.lean ====
section
/-! DEFINITION. The state of one block instance (10_state.md R30), as plain data, and the state after reset (R55,
70_reset_and_hazards.md R360); the records of the message queue; the host's turns; the reasons a step can stop. -/

namespace Sys2Proof.Machine

/-- The frame buffer's contents (R32, R70): octets by address, addresses strictly rising, no entry equal to what an
unlisted address reads as, 0x00 (assumption 5). Its operations and `Memory.wf` are in Machine/Ops.lean. -/
abbrev Memory := List Host.Cell

/-- The engine's phases (R50). -/
inductive Phase where
  | idle | recv | hdr | disp | done | fault
deriving DecidableEq, Repr

/-! ## Message records (R49) -/

/-- Delivered fields of a Service (R264). -/
structure ServiceFields where
  code : BitVec 8
  argCount : Int
  arguments : List Octet
deriving DecidableEq, Repr

/-- Delivered fields of an FwUpdateRequest (R235). -/
structure FwUpdateRequestFields where
  flags : BitVec 8
  updatePeriod : Int
  addr0 : BitVec 16
  addr1 : BitVec 16
  addr2 : BitVec 16
  addr3 : BitVec 16
  offset : BitVec 32
  firmwareSize : BitVec 32
  firmwareChecksum : BitVec 32
deriving DecidableEq, Repr

/-- Delivered fields of an FwUpdateData (R265). -/
structure FwUpdateDataFields where
  flags : BitVec 8
  slotDataMap : BitVec 16
  offset : BitVec 24
  dataLength : Int
  buffer : List Octet
deriving DecidableEq, Repr

/-- Delivered fields of a GroupPoll (R237): `sq` whole, and its two parts under SplitSQ (R238). -/
structure GroupPollFields where
  flags : BitVec 16
  updatePeriod : Int
  anchorAddr0 : BitVec 16
  anchorAddr1 : BitVec 16
  anchorAddr2 : BitVec 16
  anchorAddr3 : BitVec 16
  sequenceNumber : BitVec 8
  sq : Octet
  stationary : Bool
  qualityFactor : Nat
  x : BitVec 32
  y : BitVec 32
  z : BitVec 32
  padding : BitVec 16
deriving DecidableEq, Repr

/-- Delivered fields of a BridgeNodeBeacon (R266), with the address view of its trailing octets (R267). -/
structure BridgeNodeBeaconFields where
  clusterMap : BitVec 32
  address : BitVec 16
  bnClusterLock : BitVec 8
  bnClusterSeat : BitVec 8
  tagAddressCount : Int
  tagAddresses : List Octet
  tagAddressList : List (BitVec 16)
  tagAddressLeftover : List Octet
deriving DecidableEq, Repr

/-- Delivered fields of an IotDataDownlink or IotDataUplink (R268, R269). -/
structure IotDataFields where
  id : BitVec 16
  flags : BitVec 8
  updateRate : BitVec 16
  dataLength : Int
  iotPayload : List Octet
deriving DecidableEq, Repr

/-- The FIELDS part of a record (R49), by kind. A kind whose fields are all delivered as their words uses the encoded
fields themselves. -/
inductive Fields where
  | beacon (m : BeaconBody)
  | joinRequest (m : JoinRequestBody)
  | joinConfirmation (m : JoinConfirmationBody)
  | almanac (m : AlmanacBody)
  | service (m : ServiceFields)
  | fwUpdateRequest (m : FwUpdateRequestFields)
  | fwUpdateData (m : FwUpdateDataFields)
  | position (m : PositionBody)
  | groupPoll (m : GroupPollFields)
  | response (m : ResponseBody)
  | bridgeNodeBeacon (m : BridgeNodeBeaconFields)
  | iotDataDownlink (m : IotDataFields)
  | iotDataUplink (m : IotDataFields)
deriving DecidableEq, Repr

/-- A record of the message queue (R49). -/
structure Record where
  kind : Kind
  tag : Octet
  off : Nat
  len : Nat
  fields : Fields
deriving DecidableEq, Repr

/-! ## Header result registers (R36 to R47) -/

/-- The header result registers; the default values are the reset values of R55. AUX_V is hardwired 0 and needs no
storage (R46; `State.auxV`, assumption 8). -/
structure HeaderRegs where
  fcw : BitVec 16 := 0
  ft : FrameType := .beacon
  sec : Bool := false
  fp : Bool := false
  ar : Bool := false
  pic : Bool := false
  dam : AddrMode := .noAddress
  fv : BitVec 2 := 0
  sam : AddrMode := .noAddress
  seq : Octet := 0
  dpanV : Bool := false
  dpan : BitVec 16 := 0
  daddrV : Bool := false
  daddr : BitVec 64 := 0
  spanV : Bool := false
  span : BitVec 16 := 0
  saddrV : Bool := false
  saddr : BitVec 64 := 0
  hlen : Nat := 0
deriving DecidableEq, Repr

/-- The header result registers at their reset values (R55). -/
def HeaderRegs.cleared : HeaderRegs := {}

/-! ## The host's turns (46_frame_assembler.md R300; assumption 3) -/

/-- The registers and flags a host may read (R55, R51, R340). FB and HC are not among them. -/
inductive HostReg where
  | cfg | flen | phase | cur
  | fcw | ft | sec | fp | ar | pic | dam | fv | sam | seq
  | dpanV | dpan | daddrV | daddr | spanV | span | saddrV | saddr | auxV | hlen
  | rlen | mcnt
  | msgq (k : Nat)
  | fcs0 | fcs1 | errKind | errPos
  | inReady | busy | doneF | errF
deriving DecidableEq, Repr

/-- One turn of the host port. -/
inductive HostTurn where
  /-- the host does nothing and the engine takes its turn -/
  | pass
  /-- `PUSH(o, last)` (R301) -/
  | push (o : Octet) (last : Bool)
  /-- `CFGWR(v)` (R304) -/
  | cfgwr (v : Bool)
  /-- `ACK` (R305) -/
  | ack
  /-- `RESET` (R306) -/
  | reset
  /-- a register read (R300) -/
  | read (r : HostReg)
deriving DecidableEq, Repr

/-! ## The state -/

/-- The state of one block instance (R30), with the design-time parameters and the host's coming turns beside it. -/
structure State where
  /-- the design-time parameters (R6 to R9, R363); no operation writes them (assumption 1) -/
  params : Params
  /-- the host's coming turns, first one first; the model's own field (assumption 3) -/
  hostTurns : List HostTurn
  /-- CFG.T23 (R52) -/
  cfgT23 : Bool
  /-- FB (R32) -/
  fb : Memory
  /-- FLEN (R33) -/
  flen : Nat
  /-- PHASE (R50) -/
  phase : Phase
  /-- HC, the header cursor (R34) -/
  hc : Nat
  /-- CUR, the region cursor (R35) -/
  cur : Nat
  /-- the header result registers (R36 to R47) -/
  hdr : HeaderRegs
  /-- RLEN (R48) -/
  rlen : Nat
  /-- MSGQ[0 .. MCNT) (R49); MCNT is its length (`State.mcnt`, assumption 7) -/
  msgq : List Record
  /-- FCS[0] (R54) -/
  fcs0 : Octet
  /-- FCS[1] (R54) -/
  fcs1 : Octet
  /-- ERR.KIND (R53); `none` is None -/
  errKind : Option DecodeError
  /-- ERR.POS (R53) -/
  errPos : Nat
deriving DecidableEq, Repr

/-- Every register at the value of R55's column "reset" (R360), for a block built with the parameters `p`. -/
def State.resetWith (p : Params) : State :=
  { params := p, hostTurns := [], cfgT23 := false, fb := [], flen := 0, phase := .idle, hc := 0, cur := 0,
    hdr := HeaderRegs.cleared, rlen := 0, msgq := [], fcs0 := 0, fcs1 := 0, errKind := none, errPos := 0 }

/-- The machine right after reset (R360): the reference parameters (assumption 2), and a host that does nothing. -/
def State.reset : State := State.resetWith Params.reference

/-- Reasons a step stops. The three error kinds of the block are not among them: they are taken, by fault entry (R331),
and give a next state. -/
inductive Fault where
  /-- Raised by `exec` when it is asked to run a row where the engine has no such step: a frame-control row outside the
  header step's phase, or a message row outside the dispatch phase or with no region octet left (R210, R308, R309: the
  spec gives no step there). Safe: the model stops, and `step` never asks so (assumption 10). -/
  | stepNotEnabled
deriving DecidableEq, Repr

/-- Reasons an instruction is refused. -/
inductive Refusal where
  /-- Raised by an arm of `exec` for an instruction that has no meaning yet. Safe: the model stops. No arm of this model
  raises it. -/
  | notModelled (mnemonic : String)
deriving DecidableEq, Repr

end Sys2Proof.Machine
end

