-- ==== Sys2Proof/Machine/Flags.lean ====
section
/-! DEFINITION. The flags: the bit-flag view of a message field (40_primitives.md R151), the status flags, which are
functions of the phase and hold no state of their own (10_state.md R51), the registers that are read but not stored, and
the numeric codes under which a host reads an enumeration (R37, R39, R50, R53). -/

namespace Sys2Proof.Machine

/-- Flag `k` of a `FLAGS(w)` field: bit `k` of its word (R151). -/
def flagBit {n : Nat} (V : BitVec n) (k : Nat) : Bool := V.getLsbD k

/-- IN_READY (R51). -/
def State.inReady (s : State) : Bool :=
  (s.phase == .idle || s.phase == .recv) && decide (s.flen < s.params.frameMax)

/-- BUSY (R51). -/
def State.busy (s : State) : Bool := s.phase == .hdr || s.phase == .disp

/-- DONE_F (R51). -/
def State.doneF (s : State) : Bool := s.phase == .done

/-- ERR_F (R51). -/
def State.errF (s : State) : Bool := s.phase == .fault

/-- AUX_V (R46): hardwired 0 in every phase, written by nothing. -/
def State.auxV (_ : State) : Bool := false

/-- MCNT (R49): the number of records written. -/
def State.mcnt (s : State) : Nat := s.msgq.length

/-- The code of FT (R37). -/
def frameTypeCode : FrameType → Nat
  | .beacon => 0
  | .data => 1
  | .acknowledgement => 2
  | .macCommand => 3
  | .reserved => 4

/-- The code of DAM and SAM (R39). -/
def addrModeCode : AddrMode → Nat
  | .noAddress => 0
  | .reserved => 1
  | .short16 => 2
  | .long64 => 3

/-- The code of PHASE (R50). -/
def phaseCode : Phase → Nat
  | .idle => 0
  | .recv => 1
  | .hdr => 2
  | .disp => 3
  | .done => 4
  | .fault => 5

/-- The code of ERR.KIND (R53, R320). -/
def errCode : Option DecodeError → Nat
  | none => 0
  | some .outOfRange => 1
  | some .truncatedMessage => 2
  | some .frameTooShort => 3

end Sys2Proof.Machine
end

