-- ==== Sys2Proof/Machine/Ops.lean ====
section
/-! DEFINITION. The named operations over memory and registers: the frame buffer (20_memory.md R70, 00_scope.md R18), taking
an error, the one fault entry of 60_exceptions.md R331, and the return from it (46_frame_assembler.md R305), the region
fetch (R72), the dispatch of a decoded message (43_dispatcher.md R210), and the address steps of the header walk
(42_mac_header.md R183 to R187). -/

namespace Sys2Proof.Machine

/-- What `exec` and `step` answer. -/
abbrev Result := Host.Outcome State Fault Refusal

/-! ## The frame buffer -/

/-- One octet of the buffer; an address nothing lists reads 0x00 (assumption 5). -/
def Memory.read : Memory → Nat → Octet
  | [], _ => 0
  | (k, b) :: m, a => if k = a then b else Memory.read m a

/-- Stores one octet, keeping the canonical form: addresses strictly rising, no entry that reads as an unlisted one. -/
def Memory.write : Memory → Nat → Octet → Memory
  | [], a, o => if o = 0 then [] else [(a, o)]
  | (k, b) :: m, a, o =>
    if a < k then (if o = 0 then (k, b) :: m else (a, o) :: (k, b) :: m)
    else if a = k then (if o = 0 then m else (a, o) :: m)
    else (k, b) :: Memory.write m a o

/-- The canonical form of a memory. -/
abbrev Memory.wf (m : Memory) : Prop := (m.Pairwise fun c d => c.1 < d.1) ∧ ∀ c ∈ m, c.2 ≠ 0

/-- `MemRead(a, n)` (R18): the octets `FB[a .. a+n)`, or OutOfRange when the span passes FLEN (R81). -/
def State.memRead (s : State) (a n : Nat) : Except DecodeError (List Octet) :=
  if a + n ≤ s.flen then .ok ((List.range n).map fun i => s.fb.read (a + i)) else .error .outOfRange

/-- The octets held for the current frame, `FB[0 .. FLEN)` (R32). -/
def State.frameOctets (s : State) : List Octet := (List.range s.flen).map fun i => s.fb.read i

/-- `MemWrite(a, 1, o)` (R18); only PUSH writes. -/
def State.memWrite (s : State) (a : Nat) (o : Octet) : State := { s with fb := s.fb.write a o }

/-- A buffer holding the octets `os` from address 0 on. -/
def Memory.load (os : List Octet) : Memory :=
  (os.zipIdx).filterMap fun x => if x.1 = 0 then none else some (x.2, x.1)

/-! ## Errors -/

/-- The result registers and the cursors at their reset values, as fault entry and ACK leave them (R331, R305). -/
def State.clearResults (s : State) : State :=
  { s with hc := 0, cur := 0, hdr := HeaderRegs.cleared, rlen := 0, msgq := [], fcs0 := 0, fcs1 := 0 }

/-- Fault entry, `fault(e, POS = p)` (R331): TAKING AN ERROR. ERR is written, every result register and both cursors are
cleared, the phase becomes FAULT; FB, FLEN and CFG are unchanged. -/
def State.faultEntry (s : State) (e : DecodeError) (p : Nat) : State :=
  { s.clearResults with errKind := some e, errPos := p, phase := .fault }

/-- The return to IDLE, as ACK performs it (R305, R333): every register at its reset value but CFG. -/
def State.release (s : State) : State :=
  { s.clearResults with fb := [], flen := 0, errKind := none, errPos := 0, phase := .idle }

/-! ## The dispatcher -/

/-- The record of a matched message of kind `k` at region offset `off` with `rem` region octets from its tag on, or the
error its length raises (R203, R210). -/
def makeRecord (p : Params) (k : Kind) (lf : Octet) (fields : Fields) (off rem : Nat) : Except DecodeError Record :=
  match msgLen p k rem lf with
  | .error e => .error e
  | .ok len => .ok { kind := k, tag := tagOf p.tagmap k, off := off, len := len, fields := fields }

/-- Appends a record and moves the region cursor past its message (R210). -/
def State.appendRecord (s : State) (r : Record) : State := { s with msgq := s.msgq ++ [r], cur := s.cur + r.len }

/-- The dispatch step on a match (R210) for a decoded message: its kind, its length-field octet and its delivered
fields. Where its length raises, fault entry at the tag's frame offset (R218, R309). -/
def dispatchMessage (s : State) (k : Kind) (lf : Octet) (fields : Fields) : Result :=
  if s.phase = .disp ∧ s.cur < s.rlen then
    match makeRecord s.params k lf fields s.cur (s.rlen - s.cur) with
    | .error e => .next (s.faultEntry e (s.hdr.hlen + s.cur))
    | .ok r => .next (s.appendRecord r)
  else .fault .stepNotEnabled

/-- The region from the cursor to its end, `R[CUR .. RLEN)` (R72). -/
def State.fetchRegion (s : State) : Except DecodeError (List Octet) := s.memRead (s.hdr.hlen + s.cur) (s.rlen - s.cur)

/-- The dispatch step on filler (R211). -/
def State.skipFiller (s : State) : State := { s with cur := s.cur + 1 }

/-! ## The header walk -/

/-- The frame-control word `LE(FB[0..2))` (R36). -/
def State.frameControlWord (s : State) : BitVec 16 := BitVec.ofNat 16 (LE [s.fb.read 0, s.fb.read 1])

/-- A row of the frame-control word acts in the header step only (R308). -/
def inHeaderStep (s : State) (act : Result) : Result := if s.phase = .hdr then act else .fault .stepNotEnabled

/-- Writes the header registers by `f` (R180). -/
def State.setHeader (s : State) (f : HeaderRegs → HeaderRegs) : State := { s with hdr := f s.hdr }

/-- Steps R183 to R185 for an absent destination: no field, the cursor does not move. -/
def destinationAbsent (s : State) (mode : AddrMode) : Result :=
  .next (s.setHeader fun h => { h with dam := mode, dpanV := false, dpan := 0, daddrV := false, daddr := 0 })

/-- Steps R183 to R185 for a destination with an address of `n` octets: PAN identifier, then address, both
little-endian, read at the header cursor, which moves past them. A read beyond FLEN raises OutOfRange (R18). -/
def destinationPresent (s : State) (mode : AddrMode) (n : Nat) : Result :=
  match s.memRead s.hc 2 with
  | .error e => .next (s.faultEntry e s.hc)
  | .ok pan =>
    match s.memRead (s.hc + 2) n with
    | .error e => .next (s.faultEntry e (s.hc + 2))
    | .ok addr =>
      .next { s.setHeader (fun h =>
        { h with dam := mode, dpanV := true, dpan := BitVec.ofNat 16 (LE pan), daddrV := true,
                 daddr := BitVec.ofNat 64 (LE addr) }) with hc := s.hc + 2 + n }

/-- Steps R186 and R187 for an absent source: neither field, the cursor does not move, whatever PIC is. -/
def sourceAbsent (s : State) (mode : AddrMode) : Result :=
  .next (s.setHeader fun h => { h with sam := mode, spanV := false, span := 0, saddrV := false, saddr := 0 })

/-- Step R187: the source address of `n` octets at frame offset `at`. -/
def sourceAddress (s : State) (mode : AddrMode) (n pos : Nat) (spanV : Bool) (span : BitVec 16) : Result :=
  match s.memRead pos n with
  | .error e => .next (s.faultEntry e pos)
  | .ok addr =>
    .next { s.setHeader (fun h =>
      { h with sam := mode, spanV := spanV, span := span, saddrV := true, saddr := BitVec.ofNat 64 (LE addr) })
      with hc := pos + n }

/-- Steps R186 and R187 for a source with an address of `n` octets: the PAN identifier only when PIC is clear, then the
address. -/
def sourcePresent (s : State) (mode : AddrMode) (n : Nat) : Result :=
  if s.hdr.pic then sourceAddress s mode n s.hc false 0
  else
    match s.memRead s.hc 2 with
    | .error e => .next (s.faultEntry e s.hc)
    | .ok pan => sourceAddress s mode n (s.hc + 2) true (BitVec.ofNat 16 (LE pan))

end Sys2Proof.Machine
end

