-- ==== Sys2Proof/Machine/FixedMessages.lean ====
section
/-! DEFINITION. The meanings of the eight fixed-length messages (44_messages_fixed.md R230 to R239). Each is one dispatch
step on a match (R210) with the fields the message's own rule delivers. A fixed message has no length field; the octet
handed to the length test is 0 and is not looked at (R204). -/

namespace Sys2Proof.Machine

/-- Delivered fields of an FwUpdateRequest (R235): `updatePeriod` read as signed 16-bit. -/
def deliverFwUpdateRequest (m : FwUpdateRequestBody) : FwUpdateRequestFields :=
  { flags := m.flags, updatePeriod := signedOf m.updatePeriod, addr0 := m.addr0, addr1 := m.addr1, addr2 := m.addr2,
    addr3 := m.addr3, offset := m.offset, firmwareSize := m.firmwareSize, firmwareChecksum := m.firmwareChecksum }

/-- Delivered fields of a GroupPoll (R237, R238). -/
def deliverGroupPoll (p : Params) (m : GroupPollBody) : GroupPollFields :=
  let parts := splitSQ p.qfMode m.sq
  { flags := m.flags, updatePeriod := signedOf m.updatePeriod, anchorAddr0 := m.anchorAddr0, anchorAddr1 := m.anchorAddr1,
    anchorAddr2 := m.anchorAddr2, anchorAddr3 := m.anchorAddr3, sequenceNumber := m.sequenceNumber, sq := m.sq,
    stationary := parts.1, qualityFactor := parts.2, x := m.x, y := m.y, z := m.z, padding := m.padding }

/-- Beacon (R231). -/
def execBeacon (m : BeaconBody) (s : State) : Result := dispatchMessage s .beacon 0 (.beacon m)

/-- JoinRequest (R232). -/
def execJoinRequest (m : JoinRequestBody) (s : State) : Result := dispatchMessage s .joinRequest 0 (.joinRequest m)

/-- JoinConfirmation (R233). -/
def execJoinConfirmation (m : JoinConfirmationBody) (s : State) : Result :=
  dispatchMessage s .joinConfirmation 0 (.joinConfirmation m)

/-- Almanac (R234). -/
def execAlmanac (m : AlmanacBody) (s : State) : Result := dispatchMessage s .almanac 0 (.almanac m)

/-- FwUpdateRequest (R235). -/
def execFwUpdateRequest (m : FwUpdateRequestBody) (s : State) : Result :=
  dispatchMessage s .fwUpdateRequest 0 (.fwUpdateRequest (deliverFwUpdateRequest m))

/-- Position (R236). -/
def execPosition (m : PositionBody) (s : State) : Result := dispatchMessage s .position 0 (.position m)

/-- GroupPoll (R237, R238). -/
def execGroupPoll (m : GroupPollBody) (s : State) : Result :=
  dispatchMessage s .groupPoll 0 (.groupPoll (deliverGroupPoll s.params m))

/-- Response (R239). -/
def execResponse (m : ResponseBody) (s : State) : Result := dispatchMessage s .response 0 (.response m)

end Sys2Proof.Machine
end

