-- ==== Sys2Proof/Machine/FrameControl.lean ====
section
/-! DEFINITION. The meanings of the rows that decode the frame-control word itself: the whole word (41_frame_control.md
R160), the frame types (R161) and the flags (R163). They act within the header step (R308). -/

namespace Sys2Proof.Machine

/-- FrameControl (R160, R181): the nine registers of DecodeFC, and the header cursor past the word. -/
def execFrameControl (fcw : BitVec 16) (s : State) : Result :=
  inHeaderStep s (.next { s.setHeader (fun h =>
    let fc := decodeWord fcw
    { h with fcw := fc.fcw, ft := fc.ft, sec := fc.sec, fp := fc.fp, ar := fc.ar, pic := fc.pic, dam := fc.dam,
             fv := fc.fv, sam := fc.sam }) with hc := 2 })

/-- FT.Beacon (R161). -/
def execFtBeacon (s : State) : Result := inHeaderStep s (.next (s.setHeader fun h => { h with ft := .beacon }))

/-- FT.Data (R161). -/
def execFtData (s : State) : Result := inHeaderStep s (.next (s.setHeader fun h => { h with ft := .data }))

/-- FT.Acknowledgement (R161). -/
def execFtAcknowledgement (s : State) : Result :=
  inHeaderStep s (.next (s.setHeader fun h => { h with ft := .acknowledgement }))

/-- FT.MacCommand (R161). -/
def execFtMacCommand (s : State) : Result := inHeaderStep s (.next (s.setHeader fun h => { h with ft := .macCommand }))

/-- FT.Reserved (R161): the register reads Reserved whatever the raw code; the code stays readable in FCW[2:0]. -/
def execFtReserved (_raw : BitVec 3) (s : State) : Result :=
  inHeaderStep s (.next (s.setHeader fun h => { h with ft := .reserved }))

/-- FLAG.SEC (R163). -/
def execFlagSec (s : State) : Result := inHeaderStep s (.next (s.setHeader fun h => { h with sec := true }))

/-- FLAG.FP (R163). -/
def execFlagFp (s : State) : Result := inHeaderStep s (.next (s.setHeader fun h => { h with fp := true }))

/-- FLAG.AR (R163). -/
def execFlagAr (s : State) : Result := inHeaderStep s (.next (s.setHeader fun h => { h with ar := true }))

/-- FLAG.PIC (R163). -/
def execFlagPic (s : State) : Result := inHeaderStep s (.next (s.setHeader fun h => { h with pic := true }))

end Sys2Proof.Machine
end

