-- ==== Sys2Proof/Machine/Header.lean ====
section
/-! DEFINITION. The meanings of the address-mode rows: the mode register (42_mac_header.md R162) and the step of the header
walk that the mode selects (R183 to R187, R191). They act within the header step (R308). -/

namespace Sys2Proof.Machine

/-- DAM.NoAddress (R162, R183): no PAN identifier, no address, no cursor movement. -/
def execDamNoAddress (s : State) : Result := inHeaderStep s (destinationAbsent s .noAddress)

/-- DAM.Reserved (R162, R183, R191): treated as NoAddress; the register reads Reserved. -/
def execDamReserved (s : State) : Result := inHeaderStep s (destinationAbsent s .reserved)

/-- DAM.Short16 (R184, R185): PAN identifier and a 2-octet address. -/
def execDamShort16 (s : State) : Result := inHeaderStep s (destinationPresent s .short16 2)

/-- DAM.Long64 (R184, R185): PAN identifier and an 8-octet address. -/
def execDamLong64 (s : State) : Result := inHeaderStep s (destinationPresent s .long64 8)

/-- SAM.NoAddress (R162, R187). -/
def execSamNoAddress (s : State) : Result := inHeaderStep s (sourceAbsent s .noAddress)

/-- SAM.Reserved (R162, R187, R191). -/
def execSamReserved (s : State) : Result := inHeaderStep s (sourceAbsent s .reserved)

/-- SAM.Short16 (R186, R187): PAN identifier when PIC = 0, then a 2-octet address. -/
def execSamShort16 (s : State) : Result := inHeaderStep s (sourcePresent s .short16 2)

/-- SAM.Long64 (R186, R187): PAN identifier when PIC = 0, then an 8-octet address. -/
def execSamLong64 (s : State) : Result := inHeaderStep s (sourcePresent s .long64 8)

end Sys2Proof.Machine
end

