-- ==== Sys2Proof/Machine/VariableMessages.lean ====
section
/-! DEFINITION. The meanings of the five variable-length messages (45_messages_variable.md R260 to R269). Each is one
dispatch step on a match (R210): the length field's octet decides the length or the error (R209), and the record delivers
it as the signed integer it was read as (R261) with the trailing buffer in source order (R262). -/

namespace Sys2Proof.Machine

/-- Delivered fields of a Service (R264). -/
def deliverService (m : ServiceBody) : ServiceFields :=
  { code := m.code, argCount := signedOf m.argCount, arguments := m.arguments }

/-- Delivered fields of an FwUpdateData (R265). -/
def deliverFwUpdateData (m : FwUpdateDataBody) : FwUpdateDataFields :=
  { flags := m.flags, slotDataMap := m.slotDataMap, offset := m.offset, dataLength := signedOf m.dataLength,
    buffer := m.buffer }

/-- Delivered fields of a BridgeNodeBeacon (R266), with TagAddrView of its trailing octets (R267). -/
def deliverBridgeNodeBeacon (m : BridgeNodeBeaconBody) : BridgeNodeBeaconFields :=
  { clusterMap := m.clusterMap, address := m.address, bnClusterLock := m.bnClusterLock, bnClusterSeat := m.bnClusterSeat,
    tagAddressCount := signedOf m.tagAddressCount, tagAddresses := m.tagAddresses,
    tagAddressList := tagAddressList m.tagAddresses, tagAddressLeftover := tagAddressLeftover m.tagAddresses }

/-- Delivered fields of an IotDataDownlink or IotDataUplink (R268, R269). -/
def deliverIotData (m : IotDataBody) : IotDataFields :=
  { id := m.id, flags := m.flags, updateRate := m.updateRate, dataLength := signedOf m.dataLength,
    iotPayload := m.iotPayload }

/-- Service (R264). -/
def execService (m : ServiceBody) (s : State) : Result :=
  dispatchMessage s .service m.argCount (.service (deliverService m))

/-- FwUpdateData (R265). -/
def execFwUpdateData (m : FwUpdateDataBody) (s : State) : Result :=
  dispatchMessage s .fwUpdateData m.dataLength (.fwUpdateData (deliverFwUpdateData m))

/-- BridgeNodeBeacon (R266, R267). -/
def execBridgeNodeBeacon (m : BridgeNodeBeaconBody) (s : State) : Result :=
  dispatchMessage s .bridgeNodeBeacon m.tagAddressCount (.bridgeNodeBeacon (deliverBridgeNodeBeacon m))

/-- IotDataDownlink (R268). -/
def execIotDataDownlink (m : IotDataBody) (s : State) : Result :=
  dispatchMessage s .iotDataDownlink m.dataLength (.iotDataDownlink (deliverIotData m))

/-- IotDataUplink (R269). -/
def execIotDataUplink (m : IotDataBody) (s : State) : Result :=
  dispatchMessage s .iotDataUplink m.dataLength (.iotDataUplink (deliverIotData m))

end Sys2Proof.Machine
end

