-- ==== Sys2Proof/Machine/Dispatch.lean ====
section
/-! DEFINITION. The dispatch of an instruction to its meaning: one arm per row of spec/opcode_table.json. -/

namespace Sys2Proof.Machine

/-- The effect of one row on the state. -/
def exec (i : Instr) (s : State) : Host.Outcome State Fault Refusal :=
  match i with
  | .beacon m => Sys2Proof.Machine.execBeacon m s
  | .joinRequest m => Sys2Proof.Machine.execJoinRequest m s
  | .joinConfirmation m => Sys2Proof.Machine.execJoinConfirmation m s
  | .almanac m => Sys2Proof.Machine.execAlmanac m s
  | .service m => Sys2Proof.Machine.execService m s
  | .fwUpdateRequest m => Sys2Proof.Machine.execFwUpdateRequest m s
  | .fwUpdateData m => Sys2Proof.Machine.execFwUpdateData m s
  | .position m => Sys2Proof.Machine.execPosition m s
  | .groupPoll m => Sys2Proof.Machine.execGroupPoll m s
  | .response m => Sys2Proof.Machine.execResponse m s
  | .bridgeNodeBeacon m => Sys2Proof.Machine.execBridgeNodeBeacon m s
  | .iotDataDownlink m => Sys2Proof.Machine.execIotDataDownlink m s
  | .iotDataUplink m => Sys2Proof.Machine.execIotDataUplink m s
  | .frameControl fcw => Sys2Proof.Machine.execFrameControl fcw s
  | .ftBeacon => Sys2Proof.Machine.execFtBeacon s
  | .ftData => Sys2Proof.Machine.execFtData s
  | .ftAcknowledgement => Sys2Proof.Machine.execFtAcknowledgement s
  | .ftMacCommand => Sys2Proof.Machine.execFtMacCommand s
  | .ftReserved raw => Sys2Proof.Machine.execFtReserved raw s
  | .flagSec => Sys2Proof.Machine.execFlagSec s
  | .flagFp => Sys2Proof.Machine.execFlagFp s
  | .flagAr => Sys2Proof.Machine.execFlagAr s
  | .flagPic => Sys2Proof.Machine.execFlagPic s
  | .damNoAddress => Sys2Proof.Machine.execDamNoAddress s
  | .damReserved => Sys2Proof.Machine.execDamReserved s
  | .damShort16 => Sys2Proof.Machine.execDamShort16 s
  | .damLong64 => Sys2Proof.Machine.execDamLong64 s
  | .samNoAddress => Sys2Proof.Machine.execSamNoAddress s
  | .samReserved => Sys2Proof.Machine.execSamReserved s
  | .samShort16 => Sys2Proof.Machine.execSamShort16 s
  | .samLong64 => Sys2Proof.Machine.execSamLong64 s

end Sys2Proof.Machine
end

