-- ==== Sys2Proof/Machine/HostPort.lean ====
section
/-! DEFINITION. The host's operations (46_frame_assembler.md R300 to R306) and its register reads (10_state.md R55). -/

namespace Sys2Proof.Machine

/-- `PUSH(o, last)` (R301): the octet lands at FB[FLEN]. When IN_READY is false the push is not accepted and changes
nothing (R302, R373). -/
def hostPush (o : Octet) (last : Bool) (s : State) : State :=
  if s.inReady then
    { s.memWrite s.flen o with flen := s.flen + 1, phase := if last then .hdr else .recv }
  else s

/-- `CFGWR(v)` (R304): honoured in IDLE only, otherwise ignored (R372). -/
def hostCfgwr (v : Bool) (s : State) : State := if s.phase = .idle then { s with cfgT23 := v } else s

/-- `ACK` (R305): the return from DONE and FAULT; ignored in any other phase (R374). -/
def hostAck (s : State) : State := if s.phase = .done ∨ s.phase = .fault then s.release else s

/-- `RESET` (R306, R360, R361): every register at its reset value, CFG included; the parameters are not registers
(R363), and the host's further turns are the host's own. -/
def hostReset (s : State) : State := { State.resetWith s.params with hostTurns := s.hostTurns }

/-- What a read delivers: a number, or a record of the message queue. -/
inductive HostValue where
  | num (n : Nat)
  | record (r : Record)
deriving DecidableEq, Repr

/-- A register read (R300, R55): the value, or nothing for MSGQ[k] with k >= MCNT, which cannot be read (R375). -/
def hostRead (s : State) : HostReg → Option HostValue
  | .cfg => some (.num s.cfgT23.toNat)
  | .flen => some (.num s.flen)
  | .phase => some (.num (phaseCode s.phase))
  | .cur => some (.num s.cur)
  | .fcw => some (.num s.hdr.fcw.toNat)
  | .ft => some (.num (frameTypeCode s.hdr.ft))
  | .sec => some (.num s.hdr.sec.toNat)
  | .fp => some (.num s.hdr.fp.toNat)
  | .ar => some (.num s.hdr.ar.toNat)
  | .pic => some (.num s.hdr.pic.toNat)
  | .dam => some (.num (addrModeCode s.hdr.dam))
  | .fv => some (.num s.hdr.fv.toNat)
  | .sam => some (.num (addrModeCode s.hdr.sam))
  | .seq => some (.num s.hdr.seq.toNat)
  | .dpanV => some (.num s.hdr.dpanV.toNat)
  | .dpan => some (.num s.hdr.dpan.toNat)
  | .daddrV => some (.num s.hdr.daddrV.toNat)
  | .daddr => some (.num s.hdr.daddr.toNat)
  | .spanV => some (.num s.hdr.spanV.toNat)
  | .span => some (.num s.hdr.span.toNat)
  | .saddrV => some (.num s.hdr.saddrV.toNat)
  | .saddr => some (.num s.hdr.saddr.toNat)
  | .auxV => some (.num s.auxV.toNat)
  | .hlen => some (.num s.hdr.hlen)
  | .rlen => some (.num s.rlen)
  | .mcnt => some (.num s.mcnt)
  | .msgq k => s.msgq[k]?.map .record
  | .fcs0 => some (.num s.fcs0.toNat)
  | .fcs1 => some (.num s.fcs1.toNat)
  | .errKind => some (.num (errCode s.errKind))
  | .errPos => some (.num s.errPos)
  | .inReady => some (.num s.inReady.toNat)
  | .busy => some (.num s.busy.toNat)
  | .doneF => some (.num s.doneF.toNat)
  | .errF => some (.num s.errF.toNat)

/-- One host turn other than `pass`: a read changes nothing (its value is `hostRead`), and so does `pass` itself. -/
def hostTurn (t : HostTurn) (s : State) : State :=
  match t with
  | .pass => s
  | .push o last => hostPush o last s
  | .cfgwr v => hostCfgwr v s
  | .ack => hostAck s
  | .reset => hostReset s
  | .read _ => s

end Sys2Proof.Machine
end

