-- ==== Sys2Proof/Machine/Engine.lean ====
section
/-! DEFINITION. The engine's three steps, HDRSTEP, DISPSTEP and FINSTEP (46_frame_assembler.md R308, R309, R296), the turn
that the step takes, and the placing of one instruction where the next step fetches it. -/

namespace Sys2Proof.Machine

/-! ## HDRSTEP (R308) -/

/-- The FrameTooShort test (R292): the frame has no frame-control word, or is shorter than its header and FCS. -/
def State.headerTooShort (s : State) : Bool :=
  decide (s.flen < 2) || decide (s.flen < headerLen s.frameControlWord + 2)

/-- Goes on within the header step; an error taken by a row ends it (R326). -/
def andThenInHeader (r : Result) (next : State → Result) : Result :=
  match r with
  | .next t => if t.phase = .hdr then next t else .next t
  | .fault f => .fault f
  | .refused q => .refused q

/-- Runs rows in order within the header step. -/
def runRows : List Instr → State → Result
  | [], s => .next s
  | i :: rows, s => andThenInHeader (exec i s) (runRows rows)

/-- The sequence number (R182): one octet at the header cursor. -/
def readSequence (s : State) : Result :=
  match s.memRead s.hc 1 with
  | .error e => .next (s.faultEntry e s.hc)
  | .ok os => .next { s.setHeader (fun h => { h with seq := BitVec.ofNat 8 (LE os) }) with hc := s.hc + 1 }

/-- The end of the header step (R188, R189, R308): no auxiliary header is consumed, HLEN and RLEN are written, the
dispatch phase begins with an empty queue. -/
def closeHeader (s : State) : State :=
  { s.setHeader (fun h => { h with hlen := s.hc }) with
    rlen := s.flen - 2 - s.hc, cur := 0, msgq := [], phase := .disp }

/-- HDRSTEP (R308): FrameTooShort, or the header walk, R181 to R189 in order, as one atomic step. -/
def hdrStep (s : State) : Result :=
  if s.headerTooShort then .next (s.faultEntry .frameTooShort s.flen)
  else
    andThenInHeader (runRows (controlRows s.frameControlWord) s) fun s1 =>
    andThenInHeader (readSequence s1) fun s2 =>
    andThenInHeader (runRows (addressRows s.frameControlWord) s2) fun s3 =>
    .next (closeHeader s3)

/-! ## DISPSTEP (R309) and FINSTEP (R296) -/

/-- DISPSTEP (R309): fetches the region at the cursor, decodes it, and dispatches (R210) or skips (R211). -/
def dispStep (s : State) : Result :=
  match s.fetchRegion with
  | .error e => .next (s.faultEntry e (s.hdr.hlen + s.cur))
  | .ok r =>
    match decodeRegion s.params s.cfgT23 r with
    | .instr i => exec i s
    | .filler _ => .next s.skipFiller
    | .endOfRegion => .next s

/-- FINSTEP (R296): the last two octets are the FCS, in source order; the decode is done. -/
def finStep (s : State) : Result :=
  match s.memRead (s.flen - 2) 2 with
  | .ok [a, b] => .next { s with fcs0 := a, fcs1 := b, phase := .done }
  | .ok _ => .next (s.faultEntry .outOfRange (s.hdr.hlen + s.cur))
  | .error e => .next (s.faultEntry e (s.hdr.hlen + s.cur))

/-! ## The turn -/

/-- The engine's turn: the step its phase enables. Where none is enabled the engine waits and nothing changes (R345;
assumption 4). -/
def engineTurn (s : State) : Result :=
  match s.phase with
  | .hdr => hdrStep s
  | .disp => if s.cur < s.rlen then dispStep s else if s.cur = s.rlen then finStep s else .next s
  | .idle => .next s
  | .recv => .next s
  | .done => .next s
  | .fault => .next s

/-- One turn of the block: the host's first listed operation, or the engine's step when the host passes or has none
listed (assumption 3). -/
def turn (s : State) : Result :=
  match s.hostTurns with
  | [] => engineTurn s
  | .pass :: ts => engineTurn { s with hostTurns := ts }
  | t :: ts => .next (hostTurn t { s with hostTurns := ts })

/-! ## Placing one instruction (assumption 12) -/

/-- A frame in the dispatch phase whose region is the row's octets, the cursor at its start: a 3-octet header, the
region, two FCS octets. -/
def placeMessage (s : State) (os : List Octet) : State :=
  { s.setHeader (fun h => { h with hlen := 3 }) with
    hostTurns := [], fb := Memory.load (List.replicate 3 0 ++ os), flen := os.length + 5, phase := .disp, cur := 0,
    rlen := os.length }

/-- A whole frame in the header phase that begins with the frame-control word `fcw`, its other octets zero, long enough
for the longest header (R190) and the FCS. -/
def placeFrame (s : State) (fcw : BitVec 16) : State :=
  { s with hostTurns := [], fb := Memory.load (littleOctets 25 fcw.toNat), flen := 25, phase := .hdr }

/-- Places a table row's bits where the very next step fetches them: a message row at the region cursor, any other row as
the frame-control word. -/
def placeWord (s : State) (nbits w : Nat) : State :=
  if isMessageWord s.params.tagmap s.cfgT23 nbits w then placeMessage s (rowOctets nbits w)
  else placeFrame s (BitVec.ofNat 16 (if nbits = 0 then w else w % 2 ^ nbits))

end Sys2Proof.Machine
end

