-- ==== Sys2Proof/Machine/Step.lean ====
section
/-! DEFINITION. One step of the machine: one turn of the block (Machine/Engine.lean). -/

namespace Sys2Proof

/-- The step: the host's next listed operation, or the engine's step. -/
def Machine.step (s : Machine.State) : Host.Outcome Machine.State Machine.Fault Machine.Refusal := Machine.turn s

/-- The state `s` with a table row's bits placed where its next step fetches (assumption 12). -/
def Machine.State.withFetchWord (s : Machine.State) (nbits w : Nat) : Machine.State := Machine.placeWord s nbits w

end Sys2Proof
end

