-- ==== Sys2Proof/Machine/Assembler.lean ====
section
/-! DEFINITION. The pure functions the source defines, beside the step machine: DecodeHeader (42_mac_header.md R180), Dispatch
(43_dispatcher.md R213) and decodeFrame (46_frame_assembler.md R290), and the mapping of the result registers to their
result (10_state.md R60). -/

namespace Sys2Proof.Machine

/-- MacHeader (R60): FrameControl, the sequence number, the optional fields and the header length. The auxiliary security
header is always absent (R188). -/
structure MacHeader where
  fc : FrameControl
  seq : Octet
  destPan : Option (BitVec 16)
  destAddr : Option (BitVec 64)
  srcPan : Option (BitVec 16)
  srcAddr : Option (BitVec 64)
  length : Nat
deriving DecidableEq, Repr

/-- Payload (R60). -/
structure Payload where
  messages : List Record
  raw : List Octet
  length : Nat
deriving DecidableEq, Repr

/-- Frame (R21, R60). -/
structure Frame where
  raw : List Octet
  header : MacHeader
  payload : Payload
  fcs : Octet × Octet
deriving DecidableEq, Repr

/-- `F[a .. a+n)` (R11). -/
def sliceAt (F : List Octet) (a n : Nat) : List Octet := (F.drop a).take n

/-- Octets of an address of a mode; none for the modes that carry no address (R105). -/
def addressOctets : AddrMode → Option Nat
  | .noAddress => none
  | .reserved => none
  | .short16 => some 2
  | .long64 => some 8

/-- DecodeHeader (R180): the six-step walk with one cursor. -/
def decodeHeader (F : List Octet) : MacHeader :=
  let fc := decodeWord (BitVec.ofNat 16 (LE (sliceAt F 0 2)))
  let seq : Octet := BitVec.ofNat 8 (LE (sliceAt F 2 1))
  let dst : Option (BitVec 16) × Option (BitVec 64) × Nat :=
    match addressOctets fc.dam with
    | none => (none, none, 3)
    | some n => (some (BitVec.ofNat 16 (LE (sliceAt F 3 2))), some (BitVec.ofNat 64 (LE (sliceAt F 5 n))), 5 + n)
  let src : Option (BitVec 16) × Option (BitVec 64) × Nat :=
    match addressOctets fc.sam with
    | none => (none, none, dst.2.2)
    | some m =>
      if fc.pic then (none, some (BitVec.ofNat 64 (LE (sliceAt F dst.2.2 m))), dst.2.2 + m)
      else (some (BitVec.ofNat 16 (LE (sliceAt F dst.2.2 2))),
            some (BitVec.ofNat 64 (LE (sliceAt F (dst.2.2 + 2) m))), dst.2.2 + 2 + m)
  { fc := fc, seq := seq, destPan := dst.1, destAddr := dst.2.1, srcPan := src.1, srcAddr := src.2.1, length := src.2.2 }

/-- What a message row delivers: its kind, its length-field octet and its fields; nothing for the frame-control rows. -/
def deliver (p : Params) : Instr → Option (Kind × Octet × Fields)
  | .beacon m => some (.beacon, 0, .beacon m)
  | .joinRequest m => some (.joinRequest, 0, .joinRequest m)
  | .joinConfirmation m => some (.joinConfirmation, 0, .joinConfirmation m)
  | .almanac m => some (.almanac, 0, .almanac m)
  | .service m => some (.service, m.argCount, .service (deliverService m))
  | .fwUpdateRequest m => some (.fwUpdateRequest, 0, .fwUpdateRequest (deliverFwUpdateRequest m))
  | .fwUpdateData m => some (.fwUpdateData, m.dataLength, .fwUpdateData (deliverFwUpdateData m))
  | .position m => some (.position, 0, .position m)
  | .groupPoll m => some (.groupPoll, 0, .groupPoll (deliverGroupPoll p m))
  | .response m => some (.response, 0, .response m)
  | .bridgeNodeBeacon m => some (.bridgeNodeBeacon, m.tagAddressCount, .bridgeNodeBeacon (deliverBridgeNodeBeacon m))
  | .iotDataDownlink m => some (.iotDataDownlink, m.dataLength, .iotDataDownlink (deliverIotData m))
  | .iotDataUplink m => some (.iotDataUplink, m.dataLength, .iotDataUplink (deliverIotData m))
  | .frameControl _ => none
  | .ftBeacon => none
  | .ftData => none
  | .ftAcknowledgement => none
  | .ftMacCommand => none
  | .ftReserved _ => none
  | .flagSec => none
  | .flagFp => none
  | .flagAr => none
  | .flagPic => none
  | .damNoAddress => none
  | .damReserved => none
  | .damShort16 => none
  | .damLong64 => none
  | .samNoAddress => none
  | .samReserved => none
  | .samShort16 => none
  | .samLong64 => none

/-- The loop of Dispatch (R213) from region offset `i`, `r` being the region from there on. `fuel` bounds the turns of
the loop; `dispatch` gives it the region's length, which R212 shows to be enough. -/
def dispatchFrom (p : Params) (t23 : Bool) : (fuel i : Nat) → List Octet → Except DecodeError (List Record)
  | 0, _, _ => .ok []
  | fuel + 1, i, r =>
    match decodeRegion p t23 r with
    | .endOfRegion => .ok []
    | .filler _ => dispatchFrom p t23 fuel (i + 1) (r.drop 1)
    | .instr ins =>
      match deliver p ins with
      | none => .ok []
      | some (k, lf, fields) =>
        match makeRecord p k lf fields i r.length with
        | .error e => .error e
        | .ok rec => (dispatchFrom p t23 fuel (i + rec.len) (r.drop rec.len)).map (rec :: ·)

/-- Dispatch (R213) over a payload region. -/
def dispatch (p : Params) (t23 : Bool) (rg : List Octet) : Except DecodeError (List Record) :=
  dispatchFrom p t23 rg.length 0 rg

/-- decodeFrame (R290). -/
def decodeFrame (p : Params) (t23 : Bool) (F : List Octet) : Except DecodeError Frame :=
  let L := F.length
  if L < 2 then .error .frameTooShort
  else
    let hl := headerLen (BitVec.ofNat 16 (LE (sliceAt F 0 2)))
    if L < hl + 2 then .error .frameTooShort
    else
      let rg := sliceAt F hl (L - 2 - hl)
      match dispatch p t23 rg with
      | .error e => .error e
      | .ok msgs =>
        .ok { raw := F, header := decodeHeader F,
              payload := { messages := msgs, raw := rg, length := L - 2 - hl },
              fcs := (F.getD (L - 2) 0, F.getD (L - 1) 0) }

/-- The Frame that the registers of a DONE state hold (R60). -/
def State.frame (s : State) : Frame :=
  let h := s.hdr
  let F := s.frameOctets
  { raw := F,
    header :=
      { fc := { fcw := h.fcw, ft := h.ft, sec := h.sec, fp := h.fp, ar := h.ar, pic := h.pic, dam := h.dam, fv := h.fv,
                sam := h.sam },
        seq := h.seq,
        destPan := if h.dpanV then some h.dpan else none,
        destAddr := if h.daddrV then some h.daddr else none,
        srcPan := if h.spanV then some h.span else none,
        srcAddr := if h.saddrV then some h.saddr else none,
        length := h.hlen },
    payload := { messages := s.msgq, raw := sliceAt F h.hlen s.rlen, length := s.rlen },
    fcs := (s.fcs0, s.fcs1) }

end Sys2Proof.Machine
end

