-- ==== Sys2Proof/Safety.lean ====
section
/-! DEFINITION. What counts as a sound state of the block, in the terms the statements use: the buffer's form, the header
registers' relations (10_state.md R42 to R47), the division of the frame (R57), the order of the records (43_dispatcher.md
R216), and the invariant that holds at reset and after every step. -/

namespace Sys2Proof.Machine

/-- The buffer is in canonical form, lists nothing at or above FLEN, and FLEN is within the capacity (R32, R33). -/
abbrev State.BufferOk (s : State) : Prop :=
  s.fb.wf ∧ (∀ c ∈ s.fb, c.1 < s.flen) ∧ s.flen ≤ s.params.frameMax

/-- Every result register and both cursors read as after reset (R331, R55). -/
abbrev State.ResultsCleared (s : State) : Prop := s.clearResults = s

/-- An address mode that carries an address (R42). -/
abbrev AddrModePresent (m : AddrMode) : Prop := m = .short16 ∨ m = .long64

/-- The presence bits follow the modes and PIC, and an absent field reads 0 (R42 to R45). -/
abbrev HeaderRegs.PresenceOk (h : HeaderRegs) : Prop :=
  (h.dpanV = true ↔ AddrModePresent h.dam) ∧ h.daddrV = h.dpanV ∧
  (h.spanV = true ↔ AddrModePresent h.sam ∧ h.pic = false) ∧ (h.saddrV = true ↔ AddrModePresent h.sam) ∧
  (h.dpanV = false → h.dpan = 0 ∧ h.daddr = 0) ∧ (h.spanV = false → h.span = 0) ∧ (h.saddrV = false → h.saddr = 0)

/-- The frame is divided into header, region and FCS (R71, R57), and the region cursor is inside the region (R35). -/
abbrev State.RegionOk (s : State) : Prop :=
  3 ≤ s.hdr.hlen ∧ s.hdr.hlen ≤ 23 ∧ s.flen = s.hdr.hlen + s.rlen + 2 ∧ s.cur ≤ s.rlen ∧ s.hc = s.hdr.hlen

/-- The records lie in order, without overlap, in the region offsets from `lo` to `hi`, each of at least 3 octets
(R207, R216). -/
def RecordsWithin : (lo : Nat) → List Record → (hi : Nat) → Prop
  | lo, [], hi => lo ≤ hi
  | lo, r :: rs, hi => lo ≤ r.off ∧ 3 ≤ r.len ∧ RecordsWithin (r.off + r.len) rs hi

/-- What each phase promises of the registers (R50, R56, R57). -/
def State.PhaseOk (s : State) : Prop :=
  match s.phase with
  | .idle => s.flen = 0 ∧ s.ResultsCleared ∧ s.errPos = 0
  | .recv => 0 < s.flen ∧ s.ResultsCleared ∧ s.errPos = 0
  | .hdr => 0 < s.flen ∧ s.ResultsCleared ∧ s.errPos = 0
  | .disp => s.RegionOk ∧ RecordsWithin 0 s.msgq s.cur ∧ s.hdr.PresenceOk ∧ s.hdr.fcw = s.frameControlWord ∧
      s.fcs0 = 0 ∧ s.fcs1 = 0 ∧ s.errPos = 0
  | .done => s.RegionOk ∧ RecordsWithin 0 s.msgq s.cur ∧ s.hdr.PresenceOk ∧ s.hdr.fcw = s.frameControlWord ∧
      s.cur = s.rlen ∧ s.fcs0 = s.fb.read (s.flen - 2) ∧ s.fcs1 = s.fb.read (s.flen - 1) ∧ s.errPos = 0
  | .fault => 0 < s.flen ∧ s.ResultsCleared

/-- The invariant: a sound buffer, an error kind exactly in FAULT (R53), and what the phase promises. -/
def State.Inv (s : State) : Prop :=
  s.BufferOk ∧ (s.errKind = none ↔ s.phase ≠ .fault) ∧ s.PhaseOk

/-- The engine is to move next: the host has no turn listed (assumption 3). -/
abbrev State.EngineNext (s : State) : Prop := s.hostTurns = []

/-- The engine is to move next, from the state `e`: the host has no turn listed, or its first turn is `pass`, which leaves
the list (assumption 3). -/
abbrev State.EngineMovesFrom (s e : State) : Prop :=
  (s.hostTurns = [] ∧ e = s) ∨ ∃ ts, s.hostTurns = .pass :: ts ∧ e = { s with hostTurns := ts }

/-- The engine moves next, in the dispatch phase, with the payload region inside the frame (R71, R309). -/
abbrev State.Dispatching (s : State) : Prop := s.EngineNext ∧ s.phase = .disp ∧ s.hdr.hlen + s.rlen ≤ s.flen

/-- The message row `i` may be dispatched (R210): the dispatch phase, with a region octet at the cursor. -/
abbrev State.DispatchEnabled (s : State) : Prop := s.phase = .disp ∧ s.cur < s.rlen

/-- The region octets from the cursor to the end of the region (R203). -/
def State.rem (s : State) : Nat := s.rlen - s.cur

/-- The message offset of a kind's length field (R114); 0 for a fixed message, which has none. -/
def lengthOffset (k : Kind) : Nat :=
  match policy k with
  | .fixed _ => 0
  | .variable _ lo => lo

/-- Octets `a, a+1, …, a+n-1` of the buffer. -/
def State.octetsAt (s : State) (a n : Nat) : List Octet := (List.range n).map fun i => s.fb.read (a + i)

/-- The octet at message offset `off` of the message whose tag is at the region cursor (R72). -/
def State.octetAt (s : State) (off : Nat) : Octet := s.fb.read (s.hdr.hlen + s.cur + off)

/-- The little-endian word of `w` octets at message offset `off` of the message at the region cursor (R72, R150). -/
def State.wordAt (s : State) (off w : Nat) : BitVec (8 * w) :=
  BitVec.ofNat (8 * w) (LE (s.octetsAt (s.hdr.hlen + s.cur + off) w))

/-- The `n` octets at message offset `off` of the message at the region cursor, in source order (R72, R150). -/
def State.bufferAt (s : State) (off n : Nat) : List Octet := s.octetsAt (s.hdr.hlen + s.cur + off) n

/-- The state after a dispatch step that decoded the record `r` (R210): the record appended, the cursor past its message,
and nothing else changed. -/
def State.afterMessage (s : State) (r : Record) : State := { s with msgq := s.msgq ++ [r], cur := s.cur + r.len }

/-- The state after fault entry, written out (R331): ERR, the result registers, the cursors and the phase. -/
def State.afterFault (s : State) (e : DecodeError) (p : Nat) : State :=
  { params := s.params, hostTurns := s.hostTurns, cfgT23 := s.cfgT23, fb := s.fb, flen := s.flen, phase := .fault,
    hc := 0, cur := 0, hdr := HeaderRegs.cleared, rlen := 0, msgq := [], fcs0 := 0, fcs1 := 0, errKind := some e,
    errPos := p }

/-- `k` steps of the machine, ending at the first stop. -/
def State.run : Nat → State → Result
  | 0, s => .next s
  | k + 1, s =>
    match Sys2Proof.Machine.step s with
    | .next t => State.run k t
    | .fault f => .fault f
    | .refused q => .refused q

end Sys2Proof.Machine
end

