-- ==== Sys2Proof/Certificates/Slice0/Obligations.lean ====
section
/-! DEFINITION. The statements for the provers. Those about a dispatch step read the frame buffer directly: `octetAt off`,
`wordAt off w` and `bufferAt off n` are the octet, the little-endian word and the octets at message offset `off` of the
message whose tag is at the region cursor (20_memory.md R72). A record update in a conclusion is the frame: everything it does
not name is unchanged. -/

section

open Sys2Proof Sys2Proof.Machine

/-! ## The turn and the step -/

/-- The model's scheduling (assumption 3, over R17 and R300): the host's first listed operation is one turn; with none
listed, or on `pass`, the engine takes its step. What the engine does depends on nothing that the list holds, so a statement
about its step with none listed speaks of its step on `pass` too. -/
def Obligations.HostAndEngineTakeTurns : Prop :=
  ∀ s : State,
    (s.hostTurns = [] → step s = engineTurn s) ∧
    (∀ ts, s.hostTurns = HostTurn.pass :: ts → step s = engineTurn { s with hostTurns := ts }) ∧
    (∀ t ts, s.hostTurns = t :: ts → t ≠ HostTurn.pass → step s = .next (hostTurn t { s with hostTurns := ts })) ∧
    (∀ ts t, s.hostTurns = [] → step s = .next t →
      step { s with hostTurns := HostTurn.pass :: ts } = .next { t with hostTurns := ts })

/-- A step of the engine, with no turn listed or on `pass`, runs the decoded instruction: in the dispatch phase, the row that the region octets at the cursor decode to; in
the header phase, the rows the frame-control word matches, in order, with the sequence number read between the word's own
rows and the address rows and the header closed after them (R180, R308, R309; assumption 9). -/
def Obligations.StepRunsTheDecodedRows : Prop :=
  (∀ (s e : State) (i : Instr), s.EngineMovesFrom e → e.phase = .disp → e.hdr.hlen + e.rlen ≤ e.flen → e.cur < e.rlen →
    decodeRegion e.params e.cfgT23 (e.bufferAt 0 e.rem) = .instr i → step s = exec i e) ∧
  (∀ s e : State, s.EngineMovesFrom e → e.phase = .hdr → 2 ≤ e.flen → headerLen e.frameControlWord + 2 ≤ e.flen →
    step s =
      andThenInHeader (runRows (controlRows e.frameControlWord) e) fun a =>
      andThenInHeader (readSequence a) fun b =>
      andThenInHeader (runRows (addressRows e.frameControlWord) b) fun c => .next (closeHeader c)) ∧
  (∀ (i : Instr) (rows : List Instr) (s t : State), exec i s = .next t → t.phase = .hdr →
    runRows (i :: rows) s = runRows rows t)

/-! ## Encoding -/

/-- A few encodings written out from the spec's examples decode to the rows they stand for (R233, R236, R264, R167). -/
def Obligations.WrittenOutWordsDecode : Prop :=
  decodeRegion Params.reference false (octets [0x13, 0x0b, 0x0a, 0x01, 0x03]) =
      .instr (.joinConfirmation { address := 0x0a0b, clusterLock := 0x01, clusterSeat := 0x03 }) ∧
  decodeRegion Params.reference false
      (octets [0x22, 0x00, 0x00, 0x48, 0x42, 0x00, 0x00, 0xc0, 0xbf, 0, 0, 0, 0, 0, 0, 0, 0]) =
      .instr (.position { x := 0x42480000, y := 0xbfc00000, z := 0, padding := 0 }) ∧
  decodeRegion Params.reference true (octets [0x23, 0x05, 0x03, 0xaa, 0xbb, 0xcc]) =
      .instr (.service { code := 0x05, argCount := 3, arguments := octets [0xaa, 0xbb, 0xcc] }) ∧
  decodeRegion Params.reference false (octets [0x00, 0x10]) = .filler 0x00 ∧
  decodeFrameControl 0x8841 = [.frameControl 0x8841, .ftData, .flagPic, .damShort16, .samShort16]

/-- Decode and encode agree: decoding the encoding of a well-formed message row, whatever octets follow, gives the row back,
for every tag map R7 allows and either setting of `CFG.T23` that selects the row (R116, R117, R230). -/
def Obligations.DecodeOfEncodedMessage : Prop :=
  ∀ (p : Params) (t23 : Bool) (i : Instr) (k : Kind) (suffix : List Octet),
    p.tagmap.wf → WellFormed p i = true → i.kind? = some k → (k = .almanac → t23 = false) → (k = .service → t23 = true) →
    decodeRegion p t23 (encode p i ++ suffix) = .instr i

/-- Encode and decode agree the other way: where the length tests accept what was decoded, the row is well formed and its
encoding is exactly the octets of the message, so that no octet is lost (R230, R260). -/
def Obligations.EncodeOfDecodedMessage : Prop :=
  ∀ (p : Params) (t23 : Bool) (r : List Octet) (i : Instr) (k : Kind) (n : Nat),
    decodeRegion p t23 r = .instr i → i.kind? = some k → msgLen p k r.length (r.getD (lengthOffset k) 0) = .ok n →
    WellFormed p i = true ∧ encode p i = r.take n

/-- A row of the frame-control word is matched exactly when the word, under the row's mask, is the row's match value
(R126, R103, R104); no message row is. -/
def Obligations.FrameControlRowsMatchTheirMasks : Prop :=
  ∀ w : BitVec 16,
    (∀ v, Instr.frameControl v ∈ decodeFrameControl w ↔ v = w) ∧
    (Instr.ftBeacon ∈ decodeFrameControl w ↔ w &&& 0x0007 = 0x0000) ∧
    (Instr.ftData ∈ decodeFrameControl w ↔ w &&& 0x0007 = 0x0001) ∧
    (Instr.ftAcknowledgement ∈ decodeFrameControl w ↔ w &&& 0x0007 = 0x0002) ∧
    (Instr.ftMacCommand ∈ decodeFrameControl w ↔ w &&& 0x0007 = 0x0003) ∧
    (∀ raw, Instr.ftReserved raw ∈ decodeFrameControl w ↔ w &&& 0x0004 = 0x0004 ∧ raw.toNat = w.toNat % 8) ∧
    (Instr.flagSec ∈ decodeFrameControl w ↔ w &&& 0x0008 = 0x0008) ∧
    (Instr.flagFp ∈ decodeFrameControl w ↔ w &&& 0x0010 = 0x0010) ∧
    (Instr.flagAr ∈ decodeFrameControl w ↔ w &&& 0x0020 = 0x0020) ∧
    (Instr.flagPic ∈ decodeFrameControl w ↔ w &&& 0x0040 = 0x0040) ∧
    (Instr.damNoAddress ∈ decodeFrameControl w ↔ w &&& 0x0c00 = 0x0000) ∧
    (Instr.damReserved ∈ decodeFrameControl w ↔ w &&& 0x0c00 = 0x0400) ∧
    (Instr.damShort16 ∈ decodeFrameControl w ↔ w &&& 0x0c00 = 0x0800) ∧
    (Instr.damLong64 ∈ decodeFrameControl w ↔ w &&& 0x0c00 = 0x0c00) ∧
    (Instr.samNoAddress ∈ decodeFrameControl w ↔ w &&& 0xc000 = 0x0000) ∧
    (Instr.samReserved ∈ decodeFrameControl w ↔ w &&& 0xc000 = 0x4000) ∧
    (Instr.samShort16 ∈ decodeFrameControl w ↔ w &&& 0xc000 = 0x8000) ∧
    (Instr.samLong64 ∈ decodeFrameControl w ↔ w &&& 0xc000 = 0xc000) ∧
    (∀ i k, i.kind? = some k → i ∉ decodeFrameControl w)

/-- Decode and encode agree for the rows of the frame-control word: a well-formed row is among the rows its own encoding
matches (R102 to R104). -/
def Obligations.DecodeOfEncodedFrameControlRow : Prop :=
  ∀ (p : Params) (i : Instr), WellFormed p i = true → i.kind? = none →
    ∃ o0 o1 : Octet, encode p i = [o0, o1] ∧ i ∈ decodeFrameControl (BitVec.ofNat 16 (LE [o0, o1]))

/-- `Match` (R202): the catalog in its order (R201), and the kind an octet selects: 0x23 by `CFG.T23`, any other tag its one
kind, any other octet nothing. -/
def Obligations.MatchSelectsTheCatalogEntry : Prop :=
  (∀ m t23 t, matchTag m t23 t = (catalog t23).find? fun k => tagOf m k == t) ∧
  catalog false = [.beacon, .joinRequest, .joinConfirmation, .almanac, .service, .fwUpdateRequest, .fwUpdateData, .position,
    .groupPoll, .response, .bridgeNodeBeacon, .iotDataDownlink, .iotDataUplink] ∧
  catalog true = [.beacon, .joinRequest, .joinConfirmation, .service, .almanac, .fwUpdateRequest, .fwUpdateData, .position,
    .groupPoll, .response, .bridgeNodeBeacon, .iotDataDownlink, .iotDataUplink] ∧
  ∀ (m : TagMap) (t23 : Bool) (t : Octet), m.wf →
    (t = 0x23#8 → matchTag m t23 t = some (if t23 then .service else .almanac)) ∧
    (∀ k, k ≠ .almanac → k ≠ .service → t = tagOf m k → matchTag m t23 t = some k) ∧
    ((∀ k, t ≠ tagOf m k) → matchTag m t23 t = none)

/-! ## Primitives -/

/-- `octetsToBits` (R140): OutOfRange when the sequence is too short, else the word whose bit string is the strings of the
first `count` octets, in the order as given or reversed. -/
def Obligations.OctetsToBitsReassembles : Prop :=
  ∀ (os : List Octet) (count : Nat) (order : ByteOrder),
    (os.length < count → oct2bits os count order = .error .outOfRange) ∧
    (count ≤ os.length → ∃ W, oct2bits os count order = .ok W ∧
      (order = .big → W.toNat = BE (os.take count) ∧ bitString W = (os.take count).flatMap bitString) ∧
      (order = .little → W.toNat = LE (os.take count) ∧ bitString W = (os.take count).reverse.flatMap bitString))

/-- `sliceBits` (R141, R142): an inclusive range counted from the least significant bit, or from the left end of the bit
string; OutOfRange where the span does not lie in the word; a call that names another width is refused. -/
def Obligations.SliceBitsSelectsTheRange : Prop :=
  ∀ (n : Nat) (W : BitVec n) (start stop total : Nat),
    (total ≠ n → ∀ b, sliceBits W start stop total b = .error .widthMismatch) ∧
    (total = n → (n ≤ stop ∨ stop < start) → ∀ b, sliceBits W start stop total b = .error .outOfRange) ∧
    (total = n → stop < n → start ≤ stop →
      (∃ V, sliceBits W start stop total true = .ok V ∧ V.toNat = W.toNat / 2 ^ start % 2 ^ (stop - start + 1) ∧
        bitString V = ((bitString W).drop (n - 1 - stop)).take (stop - start + 1)) ∧
      (∃ V, sliceBits W start stop total false = .ok V ∧ bitString V = ((bitString W).drop start).take (stop - start + 1)))

/-- `sliceOctets` (R143) and the composition law (R145): byte reversal is applied once. -/
def Obligations.ByteReversalIsAppliedOnce : Prop :=
  (∀ (data : List Octet) (start count : Nat),
    (data.length < start + count → ∀ order, sliceOct data start count order = .error .outOfRange) ∧
    (start + count ≤ data.length →
      sliceOct data start count .big = .ok ((data.drop start).take count) ∧
      sliceOct data start count .little = .ok ((data.drop start).take count).reverse)) ∧
  (∀ S T : List Octet, sliceOct S 0 S.length .little = .ok T →
    BE T = LE S ∧ LE T = BE S ∧
    numdecUnsigned T S.length .big = numdecUnsigned S S.length .little ∧
    numdecUnsigned T S.length .little = numdecUnsigned S S.length .big)

/-- Unsigned numeric decode (R146, R148): OutOfRange on a short sequence, else the sum of the first `w` octets, each with its
weight under the order (R13). -/
def Obligations.UnsignedNumericDecode : Prop :=
  ∀ (S : List Octet) (w : Nat),
    (S.length < w → ∀ order, numdecUnsigned S w order = .error .outOfRange) ∧
    (w ≤ S.length →
      (∃ V, numdecUnsigned S w .little = .ok V ∧
        V.toNat = ((List.range w).map fun i => (S.getD i 0).toNat * 256 ^ i).sum) ∧
      (∃ V, numdecUnsigned S w .big = .ok V ∧
        V.toNat = ((List.range w).map fun i => (S.getD i 0).toNat * 256 ^ (w - 1 - i)).sum))

/-- Signed reading (R16, R147, R152): two's complement, a bijection between words and the integers in range; `sext` keeps the
signed number, `zext` the unsigned one. Two's complement is PRESUMED by the spec itself (assumption 14). -/
def Obligations.SignedReadingIsTwosComplement : Prop :=
  ∀ n : Nat, 0 < n →
    (∀ W : BitVec n, signedOf W = W.toInt ∧ -(2 ^ (n - 1)) ≤ signedOf W ∧ signedOf W < 2 ^ (n - 1)) ∧
    (∀ W V : BitVec n, signedOf W = signedOf V → W = V) ∧
    (∀ z : Int, -(2 ^ (n - 1)) ≤ z → z < 2 ^ (n - 1) → ∃ W : BitVec n, signedOf W = z) ∧
    (∀ (m : Nat) (W : BitVec n), n ≤ m → signedOf (signExtend m W) = signedOf W ∧ (zeroExtend m W).toNat = W.toNat)

/-- The bit-flag view (R151): flag `k` is bit `k % 8` of the octet `k / 8` places above the field's offset. -/
def Obligations.FlagViewReadsOctetBits : Prop :=
  ∀ (r : List Octet) (off w k : Nat), off + w ≤ r.length → k < 8 * w →
    flagBit (fieldFlags r off w) k = (r.getD (off + k / 8) 0).getLsbD (k % 8) ∧
    ∃ b, sliceBits (fieldFlags r off w) k k (8 * w) true = .ok b ∧ b.getLsbD 0 = flagBit (fieldFlags r off w) k

/-- The field readers are the primitives composed (R150): the slice in little order, then the number in big order. -/
def Obligations.FieldReaderIsSliceThenNumber : Prop :=
  ∀ (r : List Octet) (off w : Nat), off + w ≤ r.length →
    (∃ T, sliceOct r off w .little = .ok T ∧ numdecUnsigned T w .big = .ok (fieldW r off w)) ∧
    numdecSigned (r.drop off) w .little = .ok (fieldS r off w) ∧
    sliceOct r off w .big = .ok (fieldBuf r off w) ∧
    (w = 4 → numdecFloat (r.drop off) .little = .ok (fieldF r off))

/-- SplitSQ (R238): the top bit, and the quality factor under each mode; the modes agree exactly when the top bit is 0. -/
def Obligations.QualityFactorUnderEachMode : Prop :=
  ∀ sq : Octet,
    splitSQ .fullOctet sq = (decide (128 ≤ sq.toNat), sq.toNat) ∧
    splitSQ .masked7 sq = (decide (128 ≤ sq.toNat), sq.toNat % 128) ∧
    ((splitSQ .fullOctet sq).2 = (splitSQ .masked7 sq).2 ↔ sq.toNat < 128)

/-- TagAddrView (R267): the whole 2-octet addresses in order, and the odd octet left over, which only BNB_SCALE = 1 can
leave. -/
def Obligations.TagAddressView : Prop :=
  (∀ B : List Octet,
    (tagAddressList B).length = B.length / 2 ∧
    (∀ j, j < B.length / 2 →
      (tagAddressList B)[j]? = some (BitVec.ofNat 16 ((B.getD (2 * j) 0).toNat + 256 * (B.getD (2 * j + 1) 0).toNat))) ∧
    tagAddressLeftover B = B.drop (2 * (B.length / 2)) ∧
    ((tagAddressLeftover B).length = if B.length % 2 = 0 then 0 else 1)) ∧
  ∀ (scale : BnbScale) (count : Nat), scale.toNat * count % 2 = 1 → scale = .one

/-! ## The frame-control word and the header -/

/-- The FrameControl row: each register from its bits of the word (R160 to R164), the cursor past it (R181), and nothing
else. That one row writes all nine registers is the model's choice (assumption 9). -/
def Obligations.FrameControlRowWritesFields : Prop :=
  ∀ (w : BitVec 16) (s : State), s.phase = .hdr →
    exec (.frameControl w) s = .next { s with
      hc := 2
      hdr := { s.hdr with
        fcw := w
        ft := [FrameType.beacon, .data, .acknowledgement, .macCommand].getD (w.toNat % 8) .reserved
        sec := w.toNat / 8 % 2 == 1
        fp := w.toNat / 16 % 2 == 1
        ar := w.toNat / 32 % 2 == 1
        pic := w.toNat / 64 % 2 == 1
        dam := [AddrMode.noAddress, .reserved, .short16].getD (w.toNat / 1024 % 4) .long64
        fv := BitVec.ofNat 2 (w.toNat / 4096)
        sam := [AddrMode.noAddress, .reserved, .short16].getD (w.toNat / 16384) .long64 } }

/-- The frame-type rows (R161) and the flag rows (R163): each writes its one register and nothing else. That they run as
rows of their own is the model's choice (assumption 9). -/
def Obligations.FrameTypeAndFlagRowsWriteOneRegister : Prop :=
  ∀ s : State, s.phase = .hdr →
    exec .ftBeacon s = .next { s with hdr := { s.hdr with ft := .beacon } } ∧
    exec .ftData s = .next { s with hdr := { s.hdr with ft := .data } } ∧
    exec .ftAcknowledgement s = .next { s with hdr := { s.hdr with ft := .acknowledgement } } ∧
    exec .ftMacCommand s = .next { s with hdr := { s.hdr with ft := .macCommand } } ∧
    (∀ raw, exec (.ftReserved raw) s = .next { s with hdr := { s.hdr with ft := .reserved } }) ∧
    exec .flagSec s = .next { s with hdr := { s.hdr with sec := true } } ∧
    exec .flagFp s = .next { s with hdr := { s.hdr with fp := true } } ∧
    exec .flagAr s = .next { s with hdr := { s.hdr with ar := true } } ∧
    exec .flagPic s = .next { s with hdr := { s.hdr with pic := true } }

/-- The destination rows (R162, R183 to R185, R191): no field and no movement for NoAddress and Reserved; else the PAN
identifier and the address of 2 or 8 octets at the cursor, which moves past them. That they run as rows of their own and
write the mode register, which R181 has written, is the model's choice (assumption 9). -/
def Obligations.DestinationRowsWalk : Prop :=
  ∀ s : State, s.phase = .hdr →
    exec .damNoAddress s = .next { s with hdr := { s.hdr with
      dam := .noAddress, dpanV := false, dpan := 0, daddrV := false, daddr := 0 } } ∧
    exec .damReserved s = .next { s with hdr := { s.hdr with
      dam := .reserved, dpanV := false, dpan := 0, daddrV := false, daddr := 0 } } ∧
    (s.hc + 4 ≤ s.flen → exec .damShort16 s = .next { s with
      hc := s.hc + 4
      hdr := { s.hdr with
        dam := .short16, dpanV := true, dpan := BitVec.ofNat 16 (LE (s.octetsAt s.hc 2))
        daddrV := true, daddr := BitVec.ofNat 64 (LE (s.octetsAt (s.hc + 2) 2)) } }) ∧
    (s.hc + 10 ≤ s.flen → exec .damLong64 s = .next { s with
      hc := s.hc + 10
      hdr := { s.hdr with
        dam := .long64, dpanV := true, dpan := BitVec.ofNat 16 (LE (s.octetsAt s.hc 2))
        daddrV := true, daddr := BitVec.ofNat 64 (LE (s.octetsAt (s.hc + 2) 8)) } })

/-- The source rows (R162, R186, R187, R191): as the destination's, but the PAN identifier is there only when PIC is
clear (R186). That they run as rows of their own and write the mode register is the model's choice (assumption 9). -/
def Obligations.SourceRowsWalk : Prop :=
  ∀ s : State, s.phase = .hdr →
    exec .samNoAddress s = .next { s with hdr := { s.hdr with
      sam := .noAddress, spanV := false, span := 0, saddrV := false, saddr := 0 } } ∧
    exec .samReserved s = .next { s with hdr := { s.hdr with
      sam := .reserved, spanV := false, span := 0, saddrV := false, saddr := 0 } } ∧
    (s.hdr.pic = true → s.hc + 2 ≤ s.flen → exec .samShort16 s = .next { s with
      hc := s.hc + 2
      hdr := { s.hdr with
        sam := .short16, spanV := false, span := 0
        saddrV := true, saddr := BitVec.ofNat 64 (LE (s.octetsAt s.hc 2)) } }) ∧
    (s.hdr.pic = false → s.hc + 4 ≤ s.flen → exec .samShort16 s = .next { s with
      hc := s.hc + 4
      hdr := { s.hdr with
        sam := .short16, spanV := true, span := BitVec.ofNat 16 (LE (s.octetsAt s.hc 2))
        saddrV := true, saddr := BitVec.ofNat 64 (LE (s.octetsAt (s.hc + 2) 2)) } }) ∧
    (s.hdr.pic = true → s.hc + 8 ≤ s.flen → exec .samLong64 s = .next { s with
      hc := s.hc + 8
      hdr := { s.hdr with
        sam := .long64, spanV := false, span := 0
        saddrV := true, saddr := BitVec.ofNat 64 (LE (s.octetsAt s.hc 8)) } }) ∧
    (s.hdr.pic = false → s.hc + 10 ≤ s.flen → exec .samLong64 s = .next { s with
      hc := s.hc + 10
      hdr := { s.hdr with
        sam := .long64, spanV := true, span := BitVec.ofNat 16 (LE (s.octetsAt s.hc 2))
        saddrV := true, saddr := BitVec.ofNat 64 (LE (s.octetsAt (s.hc + 2) 8)) } })

/-- An address row whose fields pass FLEN takes OutOfRange (R18, R81). The position it records is the model's choice
(assumption 11): no decode started by PUSH comes here. -/
def Obligations.AddressRowBeyondTheFrame : Prop :=
  ∀ s : State, s.phase = .hdr →
    (s.flen < s.hc + 4 → ∃ q, s.hc ≤ q ∧ q ≤ s.hc + 2 ∧ exec .damShort16 s = .next (s.afterFault .outOfRange q)) ∧
    (s.flen < s.hc + 10 → ∃ q, s.hc ≤ q ∧ q ≤ s.hc + 2 ∧ exec .damLong64 s = .next (s.afterFault .outOfRange q)) ∧
    (s.flen < s.hc + (if s.hdr.pic then 2 else 4) →
      ∃ q, s.hc ≤ q ∧ q ≤ s.hc + 2 ∧ exec .samShort16 s = .next (s.afterFault .outOfRange q)) ∧
    (s.flen < s.hc + (if s.hdr.pic then 8 else 10) →
      ∃ q, s.hc ≤ q ∧ q ≤ s.hc + 2 ∧ exec .samLong64 s = .next (s.afterFault .outOfRange q))

/-- HDRSTEP on a frame that is long enough (R308, R180 to R189): every header register from its octets, HLEN and RLEN, an
empty queue and the dispatch phase; nothing else. That HLEN is HeaderLen of the word is the spec's own inference (R190,
"[derived: from rules R181 to R189]"). -/
def Obligations.HeaderStepWritesTheHeader : Prop :=
  ∀ s : State, s.EngineNext → s.phase = .hdr → 2 ≤ s.flen → headerLen s.frameControlWord + 2 ≤ s.flen →
    let fc := decodeFC (s.fb.read 0) (s.fb.read 1)
    let d := fc.dam == .short16 || fc.dam == .long64
    let n := if fc.dam = .short16 then 2 else 8
    let h1 := if d then 5 + n else 3
    let v := fc.sam == .short16 || fc.sam == .long64
    let m := if fc.sam = .short16 then 2 else 8
    let p := v && !fc.pic
    let h2 := if p then h1 + 2 else h1
    let hl := if v then h2 + m else h2
    hl = headerLen s.frameControlWord ∧
    step s = .next { s with
      hdr :=
        { fcw := fc.fcw, ft := fc.ft, sec := fc.sec, fp := fc.fp, ar := fc.ar, pic := fc.pic, dam := fc.dam, fv := fc.fv
          sam := fc.sam
          seq := s.fb.read 2
          dpanV := d, dpan := if d then BitVec.ofNat 16 (LE (s.octetsAt 3 2)) else 0
          daddrV := d, daddr := if d then BitVec.ofNat 64 (LE (s.octetsAt 5 n)) else 0
          spanV := p, span := if p then BitVec.ofNat 16 (LE (s.octetsAt h1 2)) else 0
          saddrV := v, saddr := if v then BitVec.ofNat 64 (LE (s.octetsAt h2 m)) else 0
          hlen := hl }
      hc := hl, rlen := s.flen - 2 - hl, cur := 0, msgq := [], phase := .disp }

/-- HDRSTEP on a frame with no frame-control word, or shorter than its header and FCS (R292, R323): FrameTooShort at FLEN,
no header register written. -/
def Obligations.ShortFrameTakesFrameTooShort : Prop :=
  ∀ s : State, s.EngineNext → s.phase = .hdr → (s.flen < 2 ∨ s.flen < headerLen s.frameControlWord + 2) →
    step s = .next (s.afterFault .frameTooShort s.flen)

/-- HeaderLen (R190, R105), from the mode bits and PIC; the values it takes. -/
def Obligations.HeaderLengthTable : Prop :=
  (∀ w : BitVec 16,
    headerLen w = 3
      + (if w.toNat / 1024 % 4 = 2 then 4 else if w.toNat / 1024 % 4 = 3 then 10 else 0)
      + (if w.toNat / 16384 < 2 then 0
         else (if w.toNat / 64 % 2 = 1 then 0 else 2) + (if w.toNat / 16384 = 2 then 2 else 8))) ∧
  (∀ n : Nat, (∃ w : BitVec 16, headerLen w = n) ↔ n ∈ [3, 5, 7, 9, 11, 13, 15, 17, 21, 23])

/-- Only the address modes and PIC steer a decode (R122, R164, R188, R192): frames that differ in no other octet, and in the
frame-control word outside those five bits only, decode alike but for the fields of that word. -/
def Obligations.OnlyModesAndCompressionSteer : Prop :=
  ∀ (p : Params) (t23 : Bool) (a0 a1 b0 b1 : Octet) (rest : List Octet),
    BitVec.ofNat 16 (LE [a0, a1]) &&& 0xcc40#16 = BitVec.ofNat 16 (LE [b0, b1]) &&& 0xcc40#16 →
    (∀ e, decodeFrame p t23 (a0 :: a1 :: rest) = .error e → decodeFrame p t23 (b0 :: b1 :: rest) = .error e) ∧
    (∀ f, decodeFrame p t23 (a0 :: a1 :: rest) = .ok f →
      decodeFrame p t23 (b0 :: b1 :: rest) =
        .ok { f with raw := b0 :: b1 :: rest, header := { f.header with fc := decodeFC b0 b1 } })

/-! ## The dispatcher -/

/-- `MsgLen` (R203, R204, R208, R209), for every kind by its own numbers: the tests, their order and the length. -/
def Obligations.LengthTestsInOrder : Prop :=
  ∀ (p : Params) (rem : Nat) (lf : Octet),
    (∀ k N, (k, N) ∈ [(Kind.beacon, 23), (.joinRequest, 18), (.joinConfirmation, 5), (.almanac, 47), (.fwUpdateRequest, 24),
        (.position, 17), (.groupPoll, 29), (.response, 22)] →
      (rem < N → msgLen p k rem lf = .error .truncatedMessage) ∧ (N ≤ rem → msgLen p k rem lf = .ok N)) ∧
    (∀ k h scale, (k, h, scale) ∈ [(Kind.service, 3, 1), (.fwUpdateData, 8, 1), (.bridgeNodeBeacon, 10, p.bnbScale.toNat),
        (.iotDataDownlink, 7, 1), (.iotDataUplink, 7, 1)] →
      (rem < h → msgLen p k rem lf = .error .truncatedMessage) ∧
      (h ≤ rem → 128 ≤ lf.toNat → msgLen p k rem lf = .error .outOfRange) ∧
      (h ≤ rem → lf.toNat < 128 → rem < h + scale * lf.toNat → msgLen p k rem lf = .error .truncatedMessage) ∧
      (lf.toNat < 128 → h + scale * lf.toNat ≤ rem → msgLen p k rem lf = .ok (h + scale * lf.toNat)))

/-- DISPSTEP (R309, R210, R211, R218): filler moves the cursor by one and changes nothing else; a match whose length is
accepted appends one record and moves the cursor by that length; a match whose length raises takes that error at the tag's
frame offset. -/
def Obligations.DispatchStepByCase : Prop :=
  ∀ s : State, s.Dispatching → s.cur < s.rlen →
    (matchTag s.params.tagmap s.cfgT23 (s.octetAt 0) = none → step s = .next { s with cur := s.cur + 1 }) ∧
    (∀ k e, matchTag s.params.tagmap s.cfgT23 (s.octetAt 0) = some k →
      msgLen s.params k s.rem (s.octetAt (lengthOffset k)) = .error e →
      step s = .next (s.afterFault e (s.hdr.hlen + s.cur))) ∧
    (∀ k n, matchTag s.params.tagmap s.cfgT23 (s.octetAt 0) = some k →
      msgLen s.params k s.rem (s.octetAt (lengthOffset k)) = .ok n →
      ∃ f, step s = .next (s.afterMessage {
        kind := k, tag := s.octetAt 0, off := s.cur, len := n, fields := f }))

/-- FINSTEP (R296): the last two octets, in source order, and DONE. -/
def Obligations.FinishStoresTheFcs : Prop :=
  ∀ s : State, s.EngineNext → s.phase = .disp → s.cur = s.rlen → 2 ≤ s.flen →
    step s = .next { s with fcs0 := s.fb.read (s.flen - 2), fcs1 := s.fb.read (s.flen - 1), phase := .done }

/-- A region with no tag (R217): one octet a step to its end, no record, no error. -/
def Obligations.RegionWithoutTagsYieldsNothing : Prop :=
  (∀ s : State, s.Dispatching → s.cur = 0 → s.msgq = [] →
    (∀ j, j < s.rlen → matchTag s.params.tagmap s.cfgT23 (s.fb.read (s.hdr.hlen + j)) = none) →
    ∀ j, j ≤ s.rlen → State.run j s = .next { s with cur := j }) ∧
  (∀ (p : Params) (t23 : Bool) (rg : List Octet), (∀ o ∈ rg, matchTag p.tagmap t23 o = none) → dispatch p t23 rg = .ok [])

/-! ## The messages, one dispatch step each -/

/-- Beacon (R231). -/
def Obligations.BeaconStepDeliversItsRecord : Prop :=
  ∀ s : State, s.Dispatching → s.octetAt 0 = 0x10#8 → s.cur + 23 ≤ s.rlen →
    step s = .next (s.afterMessage {
      kind := .beacon, tag := 0x10#8, off := s.cur, len := 23, fields := .beacon {
      sessionId := s.wordAt 1 1, clusterFlags := s.wordAt 2 2, sfNumber := s.wordAt 4 2, clusterSlotNumber := s.wordAt 6 1,
      clusterMap := s.wordAt 7 4, dataSlotMap := s.wordAt 11 2, nonce := s.wordAt 13 10 } })

/-- JoinRequest (R232). -/
def Obligations.JoinRequestStepDeliversItsRecord : Prop :=
  tagmapRef.joinRequest = 0x12#8 ∧
  ∀ s : State, s.Dispatching → s.params.tagmap.wf → s.octetAt 0 = s.params.tagmap.joinRequest → s.cur + 18 ≤ s.rlen →
    step s = .next (s.afterMessage {
      kind := .joinRequest, tag := s.octetAt 0, off := s.cur, len := 18, fields := .joinRequest {
      hardwareVersion := s.wordAt 1 4, firmwareVersion := s.wordAt 5 4, firmwareChecksum := s.wordAt 9 4,
      options := s.wordAt 13 4, clusterSeat := s.wordAt 17 1 } })

/-- JoinConfirmation (R233). -/
def Obligations.JoinConfirmationStepDeliversItsRecord : Prop :=
  tagmapRef.joinConfirmation = 0x13#8 ∧
  ∀ s : State, s.Dispatching → s.params.tagmap.wf → s.octetAt 0 = s.params.tagmap.joinConfirmation → s.cur + 5 ≤ s.rlen →
    step s = .next (s.afterMessage {
      kind := .joinConfirmation, tag := s.octetAt 0, off := s.cur, len := 5,
      fields := .joinConfirmation {
        address := s.wordAt 1 2, clusterLock := s.wordAt 3 1, clusterSeat := s.wordAt 4 1 } })

/-- Almanac (R234): tag 0x23 with `CFG.T23 = 0`; with `CFG.T23 = 1` the octet selects no Almanac. -/
def Obligations.AlmanacStepDeliversItsRecord : Prop :=
  ∀ s : State, s.Dispatching → s.params.tagmap.wf → s.octetAt 0 = 0x23#8 →
    (s.cfgT23 = false → s.cur + 47 ≤ s.rlen →
      step s = .next (s.afterMessage {
        kind := .almanac, tag := 0x23#8, off := s.cur, len := 47, fields := .almanac {
        nonce := s.wordAt 1 10, hardwareVersion := s.wordAt 11 4, firmwareVersion := s.wordAt 15 4,
        firmware1Size := s.wordAt 19 4, firmware2Size := s.wordAt 23 4, firmware1Checksum := s.wordAt 27 4,
        firmware2Checksum := s.wordAt 31 4, nodeId := s.wordAt 35 8, nodeOption := s.wordAt 43 4 } })) ∧
    (s.cfgT23 = false → s.cur < s.rlen → s.rlen < s.cur + 47 →
      step s = .next (s.afterFault .truncatedMessage (s.hdr.hlen + s.cur))) ∧
    (s.cfgT23 = true → matchTag s.params.tagmap s.cfgT23 (s.octetAt 0) = some .service)

/-- FwUpdateRequest (R235). -/
def Obligations.FwUpdateRequestStepDeliversItsRecord : Prop :=
  tagmapRef.fwUpdateRequest = 0x18#8 ∧
  ∀ s : State, s.Dispatching → s.params.tagmap.wf → s.octetAt 0 = s.params.tagmap.fwUpdateRequest → s.cur + 24 ≤ s.rlen →
    step s = .next (s.afterMessage {
      kind := .fwUpdateRequest, tag := s.octetAt 0, off := s.cur, len := 24,
      fields := .fwUpdateRequest {
        flags := s.wordAt 1 1, updatePeriod := signedOf (s.wordAt 2 2), addr0 := s.wordAt 4 2, addr1 := s.wordAt 6 2,
        addr2 := s.wordAt 8 2, addr3 := s.wordAt 10 2, offset := s.wordAt 12 4, firmwareSize := s.wordAt 16 4,
        firmwareChecksum := s.wordAt 20 4 } })

/-- Position (R236). -/
def Obligations.PositionStepDeliversItsRecord : Prop :=
  tagmapRef.position = 0x22#8 ∧
  ∀ s : State, s.Dispatching → s.params.tagmap.wf → s.octetAt 0 = s.params.tagmap.position → s.cur + 17 ≤ s.rlen →
    step s = .next (s.afterMessage {
      kind := .position, tag := s.octetAt 0, off := s.cur, len := 17, fields := .position {
      x := s.wordAt 1 4, y := s.wordAt 5 4, z := s.wordAt 9 4, padding := s.wordAt 13 4 } })

/-- GroupPoll (R237): the stationary flag and quality factor are those of SplitSQ (R238). -/
def Obligations.GroupPollStepDeliversItsRecord : Prop :=
  tagmapRef.groupPoll = 0x30#8 ∧
  ∀ s : State, s.Dispatching → s.params.tagmap.wf → s.octetAt 0 = s.params.tagmap.groupPoll → s.cur + 29 ≤ s.rlen →
    step s = .next (s.afterMessage {
      kind := .groupPoll, tag := s.octetAt 0, off := s.cur, len := 29, fields := .groupPoll {
      flags := s.wordAt 1 2, updatePeriod := signedOf (s.wordAt 3 2), anchorAddr0 := s.wordAt 5 2,
      anchorAddr1 := s.wordAt 7 2, anchorAddr2 := s.wordAt 9 2, anchorAddr3 := s.wordAt 11 2,
      sequenceNumber := s.wordAt 13 1, sq := s.octetAt 14,
      stationary := (splitSQ s.params.qfMode (s.octetAt 14)).1, qualityFactor := (splitSQ s.params.qfMode (s.octetAt 14)).2,
      x := s.wordAt 15 4, y := s.wordAt 19 4, z := s.wordAt 23 4, padding := s.wordAt 27 2 } })

/-- Response (R239). -/
def Obligations.ResponseStepDeliversItsRecord : Prop :=
  tagmapRef.response = 0x31#8 ∧
  ∀ s : State, s.Dispatching → s.params.tagmap.wf → s.octetAt 0 = s.params.tagmap.response → s.cur + 22 ≤ s.rlen →
    step s = .next (s.afterMessage {
      kind := .response, tag := s.octetAt 0, off := s.cur, len := 22, fields := .response {
      flags := s.wordAt 1 1, slotMap := s.wordAt 2 2, gpTimestamp := s.wordAt 4 4, rTimestamp := s.wordAt 8 4,
      nonce := s.wordAt 12 10 } })

/-- Service (R264): tag 0x23 with `CFG.T23 = 1`; a length octet of 0x80 or above ends the decode; with `CFG.T23 = 0` the
octet selects no Service. -/
def Obligations.ServiceStepDeliversItsRecord : Prop :=
  ∀ s : State, s.Dispatching → s.params.tagmap.wf → s.octetAt 0 = 0x23#8 → s.cur + 3 ≤ s.rlen →
    (s.cfgT23 = true → (s.octetAt 2).toNat < 128 → s.cur + (3 + (s.octetAt 2).toNat) ≤ s.rlen →
      step s = .next (s.afterMessage {
        kind := .service, tag := 0x23#8, off := s.cur, len := 3 + (s.octetAt 2).toNat,
        fields := .service {
          code := s.wordAt 1 1, argCount := (s.octetAt 2).toNat, arguments := s.bufferAt 3 (s.octetAt 2).toNat } })) ∧
    (s.cfgT23 = true → 128 ≤ (s.octetAt 2).toNat → step s = .next (s.afterFault .outOfRange (s.hdr.hlen + s.cur))) ∧
    (s.cfgT23 = false → matchTag s.params.tagmap s.cfgT23 (s.octetAt 0) = some .almanac)

/-- FwUpdateData (R265). -/
def Obligations.FwUpdateDataStepDeliversItsRecord : Prop :=
  tagmapRef.fwUpdateData = 0x21#8 ∧
  ∀ s : State, s.Dispatching → s.params.tagmap.wf → s.octetAt 0 = s.params.tagmap.fwUpdateData →
    (s.octetAt 7).toNat < 128 → s.cur + (8 + (s.octetAt 7).toNat) ≤ s.rlen →
    step s = .next (s.afterMessage {
      kind := .fwUpdateData, tag := s.octetAt 0, off := s.cur, len := 8 + (s.octetAt 7).toNat,
      fields := .fwUpdateData {
        flags := s.wordAt 1 1, slotDataMap := s.wordAt 2 2, offset := s.wordAt 4 3, dataLength := (s.octetAt 7).toNat,
        buffer := s.bufferAt 8 (s.octetAt 7).toNat } })

/-- BridgeNodeBeacon (R266) under either BNB_SCALE; the address list and leftover are those of TagAddrView (R267). -/
def Obligations.BridgeNodeBeaconStepDeliversItsRecord : Prop :=
  tagmapRef.bridgeNodeBeacon = 0x63#8 ∧
  ∀ s : State, s.Dispatching → s.params.tagmap.wf → s.octetAt 0 = s.params.tagmap.bridgeNodeBeacon →
    (s.octetAt 9).toNat < 128 → s.cur + (10 + s.params.bnbScale.toNat * (s.octetAt 9).toNat) ≤ s.rlen →
    let n := s.params.bnbScale.toNat * (s.octetAt 9).toNat
    step s = .next (s.afterMessage {
      kind := .bridgeNodeBeacon, tag := s.octetAt 0, off := s.cur, len := 10 + n,
      fields := .bridgeNodeBeacon {
        clusterMap := s.wordAt 1 4, address := s.wordAt 5 2, bnClusterLock := s.wordAt 7 1, bnClusterSeat := s.wordAt 8 1,
        tagAddressCount := (s.octetAt 9).toNat, tagAddresses := s.bufferAt 10 n,
        tagAddressList := tagAddressList (s.bufferAt 10 n), tagAddressLeftover := tagAddressLeftover (s.bufferAt 10 n) } })

/-- IotDataDownlink (R268). -/
def Obligations.IotDataDownlinkStepDeliversItsRecord : Prop :=
  tagmapRef.iotDataDownlink = 0x65#8 ∧
  ∀ s : State, s.Dispatching → s.params.tagmap.wf → s.octetAt 0 = s.params.tagmap.iotDataDownlink →
    (s.octetAt 6).toNat < 128 → s.cur + (7 + (s.octetAt 6).toNat) ≤ s.rlen →
    step s = .next (s.afterMessage {
      kind := .iotDataDownlink, tag := s.octetAt 0, off := s.cur,
      len := 7 + (s.octetAt 6).toNat, fields := .iotDataDownlink {
        id := s.wordAt 1 2, flags := s.wordAt 3 1, updateRate := s.wordAt 4 2, dataLength := (s.octetAt 6).toNat,
        iotPayload := s.bufferAt 7 (s.octetAt 6).toNat } })

/-- IotDataUplink (R269), with the two failures its example gives. -/
def Obligations.IotDataUplinkStepDeliversItsRecord : Prop :=
  tagmapRef.iotDataUplink = 0x6a#8 ∧
  ∀ s : State, s.Dispatching → s.params.tagmap.wf → s.octetAt 0 = s.params.tagmap.iotDataUplink → s.cur + 7 ≤ s.rlen →
    ((s.octetAt 6).toNat < 128 → s.cur + (7 + (s.octetAt 6).toNat) ≤ s.rlen →
      step s = .next (s.afterMessage {
        kind := .iotDataUplink, tag := s.octetAt 0, off := s.cur,
        len := 7 + (s.octetAt 6).toNat, fields := .iotDataUplink {
          id := s.wordAt 1 2, flags := s.wordAt 3 1, updateRate := s.wordAt 4 2, dataLength := (s.octetAt 6).toNat,
          iotPayload := s.bufferAt 7 (s.octetAt 6).toNat } })) ∧
    (128 ≤ (s.octetAt 6).toNat → step s = .next (s.afterFault .outOfRange (s.hdr.hlen + s.cur))) ∧
    ((s.octetAt 6).toNat < 128 → s.rlen < s.cur + (7 + (s.octetAt 6).toNat) →
      step s = .next (s.afterFault .truncatedMessage (s.hdr.hlen + s.cur)))

/-! ## The message rows, as instructions -/

/-- The fixed message rows complete (R210): in the dispatch phase, with room for the message, each appends its record. R210
runs a row only where the octet at the cursor matches it; that TAG is the kind's tag in every state is the model's
(assumption 13). -/
def Obligations.FixedMessageRowsComplete : Prop :=
  ∀ s : State, s.phase = .disp →
    (∀ m, s.cur + 23 ≤ s.rlen → exec (.beacon m) s = .next (s.afterMessage
      { kind := .beacon, tag := 0x10#8, off := s.cur, len := 23, fields := .beacon m })) ∧
    (∀ m, s.cur + 18 ≤ s.rlen → exec (.joinRequest m) s = .next (s.afterMessage
      { kind := .joinRequest, tag := s.params.tagmap.joinRequest, off := s.cur, len := 18, fields := .joinRequest m })) ∧
    (∀ m, s.cur + 5 ≤ s.rlen → exec (.joinConfirmation m) s = .next (s.afterMessage
      { kind := .joinConfirmation, tag := s.params.tagmap.joinConfirmation, off := s.cur, len := 5,
        fields := .joinConfirmation m })) ∧
    (∀ m, s.cur + 47 ≤ s.rlen → exec (.almanac m) s = .next (s.afterMessage
      { kind := .almanac, tag := 0x23#8, off := s.cur, len := 47, fields := .almanac m })) ∧
    (∀ m, s.cur + 24 ≤ s.rlen → exec (.fwUpdateRequest m) s = .next (s.afterMessage
      { kind := .fwUpdateRequest, tag := s.params.tagmap.fwUpdateRequest, off := s.cur, len := 24,
        fields := .fwUpdateRequest {
          flags := m.flags, updatePeriod := signedOf m.updatePeriod, addr0 := m.addr0, addr1 := m.addr1, addr2 := m.addr2,
          addr3 := m.addr3, offset := m.offset, firmwareSize := m.firmwareSize, firmwareChecksum := m.firmwareChecksum } })) ∧
    (∀ m, s.cur + 17 ≤ s.rlen → exec (.position m) s = .next (s.afterMessage
      { kind := .position, tag := s.params.tagmap.position, off := s.cur, len := 17, fields := .position m })) ∧
    (∀ m, s.cur + 29 ≤ s.rlen → exec (.groupPoll m) s = .next (s.afterMessage
      { kind := .groupPoll, tag := s.params.tagmap.groupPoll, off := s.cur, len := 29, fields := .groupPoll {
          flags := m.flags, updatePeriod := signedOf m.updatePeriod, anchorAddr0 := m.anchorAddr0,
          anchorAddr1 := m.anchorAddr1, anchorAddr2 := m.anchorAddr2, anchorAddr3 := m.anchorAddr3,
          sequenceNumber := m.sequenceNumber, sq := m.sq, stationary := (splitSQ s.params.qfMode m.sq).1,
          qualityFactor := (splitSQ s.params.qfMode m.sq).2, x := m.x, y := m.y, z := m.z, padding := m.padding } })) ∧
    (∀ m, s.cur + 22 ≤ s.rlen → exec (.response m) s = .next (s.afterMessage
      { kind := .response, tag := s.params.tagmap.response, off := s.cur, len := 22, fields := .response m }))

/-- The variable message rows complete (R210, R261): in the dispatch phase, with a non-negative length field and room for
the message, each appends its record with the signed length field it was read with. As for the fixed rows, TAG is the kind's
tag in every state (assumption 13). -/
def Obligations.VariableMessageRowsComplete : Prop :=
  ∀ s : State, s.phase = .disp →
    (∀ m, m.argCount.toNat < 128 → s.cur + (3 + m.argCount.toNat) ≤ s.rlen →
      exec (.service m) s = .next (s.afterMessage
        { kind := .service, tag := 0x23#8, off := s.cur, len := 3 + m.argCount.toNat, fields := .service {
            code := m.code, argCount := m.argCount.toNat, arguments := m.arguments } })) ∧
    (∀ m, m.dataLength.toNat < 128 → s.cur + (8 + m.dataLength.toNat) ≤ s.rlen →
      exec (.fwUpdateData m) s = .next (s.afterMessage
        { kind := .fwUpdateData, tag := s.params.tagmap.fwUpdateData, off := s.cur, len := 8 + m.dataLength.toNat,
          fields := .fwUpdateData {
            flags := m.flags, slotDataMap := m.slotDataMap, offset := m.offset, dataLength := m.dataLength.toNat,
            buffer := m.buffer } })) ∧
    (∀ m, m.tagAddressCount.toNat < 128 → s.cur + (10 + s.params.bnbScale.toNat * m.tagAddressCount.toNat) ≤ s.rlen →
      exec (.bridgeNodeBeacon m) s = .next (s.afterMessage
        { kind := .bridgeNodeBeacon, tag := s.params.tagmap.bridgeNodeBeacon, off := s.cur,
          len := 10 + s.params.bnbScale.toNat * m.tagAddressCount.toNat, fields := .bridgeNodeBeacon {
            clusterMap := m.clusterMap, address := m.address, bnClusterLock := m.bnClusterLock,
            bnClusterSeat := m.bnClusterSeat, tagAddressCount := m.tagAddressCount.toNat, tagAddresses := m.tagAddresses,
            tagAddressList := tagAddressList m.tagAddresses, tagAddressLeftover := tagAddressLeftover m.tagAddresses } })) ∧
    (∀ m, m.dataLength.toNat < 128 → s.cur + (7 + m.dataLength.toNat) ≤ s.rlen →
      exec (.iotDataDownlink m) s = .next (s.afterMessage
        { kind := .iotDataDownlink, tag := s.params.tagmap.iotDataDownlink, off := s.cur, len := 7 + m.dataLength.toNat,
          fields := .iotDataDownlink {
            id := m.id, flags := m.flags, updateRate := m.updateRate, dataLength := m.dataLength.toNat,
            iotPayload := m.iotPayload } })) ∧
    (∀ m, m.dataLength.toNat < 128 → s.cur + (7 + m.dataLength.toNat) ≤ s.rlen →
      exec (.iotDataUplink m) s = .next (s.afterMessage
        { kind := .iotDataUplink, tag := s.params.tagmap.iotDataUplink, off := s.cur, len := 7 + m.dataLength.toNat,
          fields := .iotDataUplink {
            id := m.id, flags := m.flags, updateRate := m.updateRate, dataLength := m.dataLength.toNat,
            iotPayload := m.iotPayload } }))

/-- The frame of every row (R210, R180, R331): no row changes the buffer, FLEN, CFG, the parameters or the host's turns;
a row that takes no error keeps the phase, RLEN, the FCS and ERR; a row of the frame-control word keeps the region cursor and
the queue besides, a message row the header registers and the header cursor. -/
def Obligations.RowsLeaveTheRestUnchanged : Prop :=
  ∀ (i : Instr) (s t : State), exec i s = .next t →
    (∀ a, t.fb.read a = s.fb.read a) ∧ t.flen = s.flen ∧ t.cfgT23 = s.cfgT23 ∧ t.params = s.params ∧
    t.hostTurns = s.hostTurns ∧
    (t.phase ≠ .fault →
      t.phase = s.phase ∧ t.rlen = s.rlen ∧ t.fcs0 = s.fcs0 ∧ t.fcs1 = s.fcs1 ∧ t.errKind = s.errKind ∧
      t.errPos = s.errPos ∧
      (i.kind? = none → t.cur = s.cur ∧ t.msgq = s.msgq) ∧
      (i.kind? ≠ none → t.hdr = s.hdr ∧ t.hc = s.hc ∧ ∃ r, t.msgq = s.msgq ++ [r] ∧ t.cur = s.cur + r.len))

/-- The model's choice (assumption 10): a row asked to run where the engine has no such step stops, under its own name. -/
def Obligations.RowsOutsideTheirStepStop : Prop :=
  ∀ (i : Instr) (s : State),
    (i.kind? = none → s.phase ≠ .hdr → exec i s = .fault .stepNotEnabled) ∧
    (i.kind? ≠ none → ¬ s.DispatchEnabled → exec i s = .fault .stepNotEnabled)

/-! ## Errors, the host's operations and the flags -/

/-- Fault entry (R331): ERR written, every result register and both cursors read 0 and no record can be read, FAULT; the
buffer, FLEN and CFG unchanged. R331 gives the engine no step then; that its turn answers the same state is the model's
choice (assumption 4). -/
def Obligations.FaultEntryLeavesOnlyTheError : Prop :=
  ∀ (s : State) (e : DecodeError) (p : Nat),
    s.faultEntry e p = s.afterFault e p ∧
    hostRead (s.faultEntry e p) .errKind = some (.num (errCode (some e))) ∧
    hostRead (s.faultEntry e p) .errPos = some (.num p) ∧
    hostRead (s.faultEntry e p) .phase = some (.num 5) ∧
    (∀ r ∈ [HostReg.fcw, .ft, .sec, .fp, .ar, .pic, .dam, .fv, .sam, .seq, .dpanV, .dpan, .daddrV, .daddr, .spanV, .span,
        .saddrV, .saddr, .hlen, .rlen, .mcnt, .fcs0, .fcs1, .cur], hostRead (s.faultEntry e p) r = some (.num 0)) ∧
    (∀ k, hostRead (s.faultEntry e p) (.msgq k) = none) ∧
    (s.faultEntry e p).hc = 0 ∧ (s.faultEntry e p).fb = s.fb ∧ (s.faultEntry e p).flen = s.flen ∧
    (s.faultEntry e p).cfgT23 = s.cfgT23 ∧
    (s.EngineNext → step (s.faultEntry e p) = .next (s.faultEntry e p))

/-- PUSH (R301, R373): accepted when IN_READY, it stores the octet at FB[FLEN] and nowhere else, counts it, and goes to HDR
on the last octet; not accepted, it changes nothing. That the turn of a push that is not accepted is used up is the model's
choice (assumption 16). -/
def Obligations.PushStoresOneOctet : Prop :=
  ∀ (s : State) (o : Octet) (last : Bool) (ts : List HostTurn), s.hostTurns = .push o last :: ts → s.fb.wf →
    (s.inReady = true → ∃ t, step s = .next t ∧
      t = { s with hostTurns := ts, fb := t.fb, flen := s.flen + 1, phase := if last then .hdr else .recv } ∧
      t.fb.wf ∧ t.fb.read s.flen = o ∧ ∀ a, a ≠ s.flen → t.fb.read a = s.fb.read a) ∧
    (s.inReady = false → step s = .next { s with hostTurns := ts })

/-- CFGWR (R304, R52): honoured in IDLE, ignored in any other phase. -/
def Obligations.ConfigurationWrittenInIdleOnly : Prop :=
  ∀ (s : State) (v : Bool) (ts : List HostTurn), s.hostTurns = .cfgwr v :: ts →
    (s.phase = .idle → step s = .next { s with hostTurns := ts, cfgT23 := v }) ∧
    (s.phase ≠ .idle → step s = .next { s with hostTurns := ts })

/-- ACK (R305) and RESET (R306, R360): every register at its reset value, `CFG` kept by ACK and cleared by RESET; ACK acts in
DONE and FAULT only. Every readable register reads 0 at reset and no record can be read (R55). What FB then holds is left open,
as R360 leaves it; that the host's further turns stay is the model's (assumption 3). -/
def Obligations.AckAndResetClear : Prop :=
  (∀ (s : State) (ts : List HostTurn),
    (s.hostTurns = .ack :: ts → (s.phase = .done ∨ s.phase = .fault) →
      ∃ t, step s = .next t ∧ t = { State.resetWith s.params with hostTurns := ts, cfgT23 := s.cfgT23, fb := t.fb }) ∧
    (s.hostTurns = .ack :: ts → s.phase ≠ .done → s.phase ≠ .fault → step s = .next { s with hostTurns := ts }) ∧
    (s.hostTurns = .reset :: ts →
      ∃ t, step s = .next t ∧ t = { State.resetWith s.params with hostTurns := ts, fb := t.fb })) ∧
  ∀ p : Params,
    (∀ r ∈ [HostReg.cfg, .flen, .phase, .cur, .fcw, .ft, .sec, .fp, .ar, .pic, .dam, .fv, .sam, .seq, .dpanV, .dpan, .daddrV,
        .daddr, .spanV, .span, .saddrV, .saddr, .auxV, .hlen, .rlen, .mcnt, .fcs0, .fcs1, .errKind, .errPos],
      hostRead (State.resetWith p) r = some (.num 0)) ∧
    (State.resetWith p).hc = 0 ∧ ∀ k, hostRead (State.resetWith p) (.msgq k) = none

/-- Register reads: a read changes nothing but the list of turns; it delivers the register's own value (R55), a bit as 0 or
1, FT, DAM, SAM, PHASE and ERR.KIND in the codes of R37, R39, R50 and R53; record k of the queue is there exactly below MCNT
(R375); AUX_V reads 0 in every state (R46). That a read is a turn, and a value a number, is the model's (assumption 17). -/
def Obligations.HostReadsChangeNothing : Prop :=
  (∀ (s : State) (r : HostReg) (ts : List HostTurn), s.hostTurns = .read r :: ts →
    step s = .next { s with hostTurns := ts }) ∧
  ∀ s : State,
    (∀ r n, (r, n) ∈ [(HostReg.flen, s.flen), (.cur, s.cur), (.fcw, s.hdr.fcw.toNat), (.fv, s.hdr.fv.toNat),
        (.seq, s.hdr.seq.toNat), (.dpan, s.hdr.dpan.toNat), (.daddr, s.hdr.daddr.toNat), (.span, s.hdr.span.toNat),
        (.saddr, s.hdr.saddr.toNat), (.auxV, 0), (.hlen, s.hdr.hlen), (.rlen, s.rlen), (.mcnt, s.msgq.length),
        (.fcs0, s.fcs0.toNat), (.fcs1, s.fcs1.toNat), (.errPos, s.errPos)] → hostRead s r = some (.num n)) ∧
    (∀ r b, (r, b) ∈ [(HostReg.cfg, s.cfgT23), (.sec, s.hdr.sec), (.fp, s.hdr.fp), (.ar, s.hdr.ar), (.pic, s.hdr.pic),
        (.dpanV, s.hdr.dpanV), (.daddrV, s.hdr.daddrV), (.spanV, s.hdr.spanV), (.saddrV, s.hdr.saddrV)] →
      hostRead s r = some (.num (if b then 1 else 0))) ∧
    (∀ v n, (v, n) ∈ [(FrameType.beacon, 0), (.data, 1), (.acknowledgement, 2), (.macCommand, 3), (.reserved, 4)] →
      s.hdr.ft = v → hostRead s .ft = some (.num n)) ∧
    (∀ v n, (v, n) ∈ [(AddrMode.noAddress, 0), (.reserved, 1), (.short16, 2), (.long64, 3)] →
      (s.hdr.dam = v → hostRead s .dam = some (.num n)) ∧ (s.hdr.sam = v → hostRead s .sam = some (.num n))) ∧
    (∀ v n, (v, n) ∈ [(Phase.idle, 0), (.recv, 1), (.hdr, 2), (.disp, 3), (.done, 4), (.fault, 5)] →
      s.phase = v → hostRead s .phase = some (.num n)) ∧
    (∀ v n, (v, n) ∈ [(none, 0), (some DecodeError.outOfRange, 1), (some .truncatedMessage, 2), (some .frameTooShort, 3)] →
      s.errKind = v → hostRead s .errKind = some (.num n)) ∧
    (∀ (k : Nat) (h : k < s.msgq.length), hostRead s (.msgq k) = some (.record s.msgq[k])) ∧
    (∀ k, hostRead s (.msgq k) = none ↔ s.mcnt ≤ k) ∧
    (∀ r ∈ [HostReg.inReady, .busy, .doneF, .errF], hostRead s r = some (.num 0) ∨ hostRead s r = some (.num 1))

/-- The status flags (R51), as a host reads them. -/
def Obligations.StatusFlagsFollowThePhase : Prop :=
  ∀ s : State,
    (hostRead s .inReady = some (.num 1) ↔ (s.phase = .idle ∨ s.phase = .recv) ∧ s.flen < s.params.frameMax) ∧
    (hostRead s .busy = some (.num 1) ↔ s.phase = .hdr ∨ s.phase = .disp) ∧
    (hostRead s .doneF = some (.num 1) ↔ s.phase = .done) ∧
    (hostRead s .errF = some (.num 1) ↔ s.phase = .fault)

/-! ## The whole machine -/

/-- The phase transitions (R307, R311, R345), from a sound state: what the engine does in each phase, with no turn listed or
on `pass`, and the only phase changes a host operation makes. That the engine's turn answers the same state where no step is
enabled (IDLE, RECV, DONE, FAULT) is the model's choice (assumption 4). -/
def Obligations.PhaseTransitionsAsTabled : Prop :=
  ∀ s t : State, s.Inv → step s = .next t →
    (∀ e, s.EngineMovesFrom e →
      ((s.phase = .idle ∨ s.phase = .recv ∨ s.phase = .done ∨ s.phase = .fault) → t = e) ∧
      (s.phase = .hdr → (t.phase = .fault ↔ s.flen < 2 ∨ s.flen < headerLen s.frameControlWord + 2) ∧
        (t.phase ≠ .fault → t.phase = .disp)) ∧
      (s.phase = .disp → s.cur < s.rlen → t.phase = .disp ∨ t.phase = .fault) ∧
      (s.phase = .disp → s.cur = s.rlen → t.phase = .done)) ∧
    (∀ x ts, s.hostTurns = x :: ts → x ≠ .pass → t.phase ≠ s.phase →
      (∃ o, x = .push o false ∧ s.phase = .idle ∧ s.flen < s.params.frameMax ∧ t.phase = .recv) ∨
      (∃ o, x = .push o true ∧ (s.phase = .idle ∨ s.phase = .recv) ∧ s.flen < s.params.frameMax ∧ t.phase = .hdr) ∨
      (x = .ack ∧ (s.phase = .done ∨ s.phase = .fault) ∧ t.phase = .idle) ∨
      (x = .reset ∧ t.phase = .idle))

/-- A step of the machine never stops: it answers a next state from every state. -/
def Obligations.StepAlwaysAnswersNext : Prop :=
  ∀ s : State, ∃ t, step s = .next t

/-- The invariant holds after reset, whatever the parameters. Its clause that the buffer lists no octet at or above FLEN is
the model's: a buffer that starts, and is left, empty (assumptions 5 and 6; R360 leaves its contents open). -/
def Obligations.InvariantHoldsAtReset : Prop :=
  (∀ p : Params, (State.resetWith p).Inv) ∧ State.reset.Inv

/-- The invariant is kept by every step, of the engine or of the host. Its clause that the buffer lists no octet at or above
FLEN survives ACK and RESET because the model empties the buffer there (assumption 6). -/
def Obligations.InvariantKeptByStep : Prop :=
  ∀ s t : State, s.Inv → step s = .next t → t.Inv

/-- What DONE promises (R57, R297, R10), in every sound state: the frame is divided, the records lie in the region, in order
and apart, and there are at most MSGQ_MAX of them. -/
def Obligations.DoneStateDividesTheFrame : Prop :=
  ∀ s : State, s.Inv → s.phase = .done →
    s.flen = s.hdr.hlen + s.rlen + 2 ∧ s.cur = s.rlen ∧
    (∀ (k : Nat) (r : Record), s.msgq[k]? = some r → r.off + r.len ≤ s.rlen) ∧
    (∀ (k : Nat) (a b : Record), s.msgq[k]? = some a → s.msgq[k + 1]? = some b → a.off + a.len ≤ b.off) ∧
    (s.msgq.map (·.len)).sum ≤ s.rlen ∧ s.mcnt ≤ s.params.msgqMax

/-- Big-step agreement (R310, R378): from the header phase the engine computes `decodeFrame` of the frame it holds, in one
header step, at most RLEN dispatch steps and one finishing step. -/
def Obligations.EngineAgreesWithDecodeFrame : Prop :=
  ∀ s : State, s.EngineNext → s.phase = .hdr →
    (∀ f, decodeFrame s.params s.cfgT23 s.frameOctets = .ok f →
      ∃ k t, k ≤ f.payload.length ∧ State.run (1 + k + 1) s = .next t ∧ t.phase = .done ∧ t.frame = f) ∧
    (∀ e, decodeFrame s.params s.cfgT23 s.frameOctets = .error e →
      ∃ k t, k ≤ s.flen - 5 ∧ State.run (1 + k) s = .next t ∧ t.phase = .fault ∧ t.errKind = some e)

/-- The FCS is stored and never checked (R295): the last two octets of a frame change nothing of its decode but the FCS and
the raw octets. -/
def Obligations.FcsIsStoredNotChecked : Prop :=
  ∀ (p : Params) (t23 : Bool) (F : List Octet) (a b c d : Octet),
    (∀ e, decodeFrame p t23 (F ++ [a, b]) = .error e → decodeFrame p t23 (F ++ [c, d]) = .error e) ∧
    (∀ f, decodeFrame p t23 (F ++ [a, b]) = .ok f →
      f.fcs = (a, b) ∧ decodeFrame p t23 (F ++ [c, d]) = .ok { f with raw := F ++ [c, d], fcs := (c, d) })

end
end

