-- ==== Sys2Proof/Laws/Memory.lean ====
section
/-! SUPPORT. Laws of the frame buffer: every memory operation keeps the canonical form, and a read after a write gives the
written octet at its address and the old one elsewhere. -/

namespace Sys2Proof.Machine

/-- The buffer after reset is canonical. -/
theorem memory_wf_nil : Memory.wf [] := ⟨List.Pairwise.nil, by simp⟩

theorem Memory.wf_tail {c : Host.Cell} {m : Memory} (h : Memory.wf (c :: m)) : Memory.wf m :=
  ⟨(List.pairwise_cons.mp h.1).2, fun d hd => h.2 d (List.mem_cons_of_mem _ hd)⟩

/-- An address below every listed one reads as unlisted. -/
theorem Memory.read_of_lt {m : Memory} {a : Nat} (h : ∀ c ∈ m, a < c.1) : m.read a = 0 := by
  induction m with
  | nil => rfl
  | cons c m ih =>
    obtain ⟨k, b⟩ := c
    have hk : a < k := h (k, b) (by simp)
    simp only [Memory.read, if_neg (Nat.ne_of_gt hk)]
    exact ih fun d hd => h d (List.mem_cons_of_mem _ hd)

/-- What an entry of the written memory is: the written cell, or an entry of the old memory. -/
theorem Memory.mem_write {m : Memory} {a : Nat} {o : Octet} {c : Host.Cell} (h : c ∈ m.write a o) :
    c = (a, o) ∨ c ∈ m := by
  induction m with
  | nil =>
    simp only [Memory.write] at h
    split at h <;> simp_all
  | cons d m ih =>
    obtain ⟨k, b⟩ := d
    simp only [Memory.write] at h
    split at h
    · split at h
      · exact .inr h
      · rcases List.mem_cons.mp h with rfl | h
        · exact .inl rfl
        · exact .inr h
    · split at h
      · split at h
        · exact .inr (List.mem_cons_of_mem _ h)
        · rcases List.mem_cons.mp h with rfl | h
          · exact .inl rfl
          · exact .inr (List.mem_cons_of_mem _ h)
      · rcases List.mem_cons.mp h with rfl | h
        · exact .inr (by simp)
        · rcases ih h with rfl | h
          · exact .inl rfl
          · exact .inr (List.mem_cons_of_mem _ h)

/-- A write keeps the canonical form. -/
theorem Memory.write_wf {m : Memory} (hm : m.wf) (a : Nat) (o : Octet) : (m.write a o).wf := by
  induction m with
  | nil =>
    unfold Memory.write
    split
    · exact memory_wf_nil
    · exact ⟨by simp, by simpa⟩
  | cons d m ih =>
    obtain ⟨k, b⟩ := d
    have hk : ∀ c ∈ m, k < c.1 := (List.pairwise_cons.mp hm.1).1
    have hb : b ≠ 0 := hm.2 (k, b) (by simp)
    have ht := Memory.wf_tail hm
    unfold Memory.write
    split
    next hak =>
      split
      · exact hm
      next ho =>
        refine ⟨List.pairwise_cons.mpr ⟨?_, hm.1⟩, ?_⟩
        · intro c hc
          rcases List.mem_cons.mp hc with rfl | hc
          · exact hak
          · exact Nat.lt_trans hak (hk c hc)
        · intro c hc
          rcases List.mem_cons.mp hc with rfl | hc
          · exact ho
          · exact hm.2 c hc
    next hak =>
      split
      next hae =>
        split
        · exact ht
        next ho =>
          refine ⟨List.pairwise_cons.mpr ⟨?_, ht.1⟩, ?_⟩
          · intro c hc
            exact hae ▸ hk c hc
          · intro c hc
            rcases List.mem_cons.mp hc with rfl | hc
            · exact ho
            · exact ht.2 c hc
      next hae =>
        have hrec := ih ht
        refine ⟨List.pairwise_cons.mpr ⟨?_, hrec.1⟩, ?_⟩
        · intro c hc
          rcases Memory.mem_write hc with rfl | hc
          · simp only; omega
          · exact hk c hc
        · intro c hc
          rcases List.mem_cons.mp hc with rfl | hc
          · exact hb
          · exact hrec.2 c hc

/-- A read after a write: the written octet at its address, the old octet at every other. -/
theorem Memory.read_write {m : Memory} (hm : m.wf) (a : Nat) (o : Octet) (b : Nat) :
    (m.write a o).read b = if b = a then o else m.read b := by
  induction m with
  | nil =>
    unfold Memory.write
    split
    next ho => subst ho; simp [Memory.read]
    next ho =>
      by_cases hba : b = a
      · simp [Memory.read, hba]
      · simp [Memory.read, hba, Ne.symm hba]
  | cons d m ih =>
    obtain ⟨k, v⟩ := d
    have hk : ∀ c ∈ m, k < c.1 := (List.pairwise_cons.mp hm.1).1
    have ht := Memory.wf_tail hm
    unfold Memory.write
    split
    next hak =>
      have below : ∀ c ∈ ((k, v) :: m : Memory), a < c.1 := by
        intro c hc
        rcases List.mem_cons.mp hc with rfl | hc
        · exact hak
        · exact Nat.lt_trans hak (hk c hc)
      split
      next ho =>
        by_cases hba : b = a
        · subst hba; rw [if_pos rfl, Memory.read_of_lt below, ho]
        · rw [if_neg hba]
      next ho =>
        by_cases hba : b = a
        · simp [Memory.read, hba]
        · simp [Memory.read, hba, Ne.symm hba]
    next hak =>
      split
      next hae =>
        subst hae
        split
        next ho =>
          by_cases hba : b = a
          · subst hba; rw [if_pos rfl, Memory.read_of_lt hk, ho]
          · simp [Memory.read, hba, Ne.symm hba]
        next ho =>
          by_cases hba : b = a
          · simp [Memory.read, hba]
          · simp [Memory.read, hba, Ne.symm hba]
      next hae =>
        simp only [Memory.read, ih ht]
        by_cases hkb : k = b
        · subst hkb; simp [Ne.symm hae]
        · simp [hkb]

end Sys2Proof.Machine
end

