-- ==== Sys2Proof/Laws/Octets.lean ====
section
/-! SUPPORT. Laws of octet sequences: the value of a sequence, its little-endian rendering, and the field readers over a
sequence written as pieces. -/

namespace Sys2Proof.Machine

@[simp] theorem LE_nil : LE [] = 0 := rfl

@[simp] theorem LE_cons (o : Octet) (os : List Octet) : LE (o :: os) = o.toNat + 256 * LE os := rfl

theorem LE_append (a b : List Octet) : LE (a ++ b) = LE a + 256 ^ a.length * LE b := by
  induction a with
  | nil => simp
  | cons o a ih => simp only [List.cons_append, LE_cons, ih, List.length_cons]; ring

/-- The word of `n` octets is below `256^n` (R13). -/
theorem LE_lt (os : List Octet) : LE os < 256 ^ os.length := by
  induction os with
  | nil => simp
  | cons o os ih =>
    have ho := o.isLt
    have step : o.toNat + 256 * LE os < 256 * 256 ^ os.length := by omega
    simpa [pow_succ, Nat.mul_comm] using step

theorem BE_eq_LE_reverse (os : List Octet) : BE os = LE os.reverse := rfl

theorem BE_reverse (os : List Octet) : BE os.reverse = LE os := by simp [BE]

@[simp] theorem littleOctets_length (w v : Nat) : (littleOctets w v).length = w := by
  induction w generalizing v with
  | zero => rfl
  | succ w ih => simp [littleOctets, ih]

theorem LE_littleOctets (w v : Nat) : LE (littleOctets w v) = v % 256 ^ w := by
  induction w generalizing v with
  | zero => simp [littleOctets, Nat.mod_one]
  | succ w ih =>
    have hp : 256 ^ (w + 1) = 256 * 256 ^ w := by ring
    simp only [littleOctets, LE_cons, ih, BitVec.toNat_ofNat, hp, Nat.mod_mul]

/-- Rendering the word of a sequence gives the sequence back. -/
theorem littleOctets_LE (os : List Octet) : littleOctets os.length (LE os) = os := by
  induction os with
  | nil => rfl
  | cons o os ih =>
    have ho := o.isLt
    have h1 : (o.toNat + 256 * LE os) / 256 = LE os := by omega
    have h2 : BitVec.ofNat 8 (o.toNat + 256 * LE os) = o := by
      apply BitVec.eq_of_toNat_eq
      simp only [BitVec.toNat_ofNat]
      omega
    simp [littleOctets, h1, h2, ih]

/-- A word of `w` octets is the word of its rendering. -/
theorem ofNat_LE_littleOctets (w : Nat) (v : BitVec (8 * w)) : BitVec.ofNat (8 * w) (LE (littleOctets w v.toNat)) = v := by
  have hv := v.isLt
  have hp : 2 ^ (8 * w) = 256 ^ w := by rw [pow_mul]; norm_num
  rw [LE_littleOctets, Nat.mod_eq_of_lt (by rw [← hp]; exact hv)]
  simp

/-- Reading a field that begins where the sequence begins. -/
theorem fieldW_zero_append (w : Nat) (v : BitVec (8 * w)) (r : List Octet) :
    fieldW (littleOctets w v.toNat ++ r) 0 w = v := by
  have h : (littleOctets w v.toNat ++ r).take w = littleOctets w v.toNat := by
    rw [List.take_append_of_le_length (by simp)]
    exact List.take_of_length_le (by simp)
  simp only [fieldW, List.drop_zero, h, ofNat_LE_littleOctets]

/-- Reading a field past one octet. -/
theorem fieldW_cons (o : Octet) (r : List Octet) (off w : Nat) : fieldW (o :: r) (off + 1) w = fieldW r off w := rfl

/-- Reading a field past a piece of known length. -/
theorem fieldW_append (a r : List Octet) (off w : Nat) (h : a.length ≤ off) :
    fieldW (a ++ r) off w = fieldW r (off - a.length) w := by
  unfold fieldW
  rw [List.drop_append, List.drop_eq_nil_of_le h, List.nil_append]

/-- Reading a buffer past a piece of known length. -/
theorem fieldBuf_append (a r : List Octet) (off n : Nat) (h : a.length ≤ off) :
    fieldBuf (a ++ r) off n = fieldBuf r (off - a.length) n := by
  unfold fieldBuf
  rw [List.drop_append, List.drop_eq_nil_of_le h, List.nil_append]

theorem fieldBuf_cons (o : Octet) (r : List Octet) (off n : Nat) : fieldBuf (o :: r) (off + 1) n = fieldBuf r off n := rfl

theorem fieldBuf_zero_append (b r : List Octet) (n : Nat) (h : b.length = n) : fieldBuf (b ++ r) 0 n = b := by
  subst h
  simp [fieldBuf]

/-- The octets of a field that lies in the sequence are the rendering of its word. -/
theorem littleOctets_fieldW (r : List Octet) (off w : Nat) (h : off + w ≤ r.length) :
    littleOctets w (fieldW r off w).toNat = (r.drop off).take w := by
  have hl : ((r.drop off).take w).length = w := by simp; omega
  have hlt := LE_lt ((r.drop off).take w)
  have hp : 2 ^ (8 * w) = 256 ^ w := by rw [pow_mul]; norm_num
  have hv : (fieldW r off w).toNat = LE ((r.drop off).take w) := by
    simp only [fieldW, BitVec.toNat_ofNat]
    rw [hl, ← hp] at hlt
    exact Nat.mod_eq_of_lt hlt
  have back := littleOctets_LE ((r.drop off).take w)
  rwa [hl, ← hv] at back

/-- A length field that is not negative reads as its own number (R118). -/
theorem signedOf_octet_nonneg (lf : Octet) (h : lf.toNat < 128) : signedOf lf = (lf.toNat : Int) := by
  simp [signedOf, h]

/-- A length field of 0x80 or above is negative (R118). -/
theorem signedOf_octet_neg (lf : Octet) (h : 128 ≤ lf.toNat) : signedOf lf < 0 := by
  have hlt := lf.isLt
  have hn : ¬ lf.toNat < 2 ^ (8 - 1) := by norm_num; omega
  simp only [signedOf, if_neg hn]
  omega

end Sys2Proof.Machine
end

