-- ==== Sys2Proof/Laws/State.lean ====
section
/-! SUPPORT. One lemma per field of State per update, each true by rfl, so that no proof unfolds a record update. -/

namespace Sys2Proof.Machine

/-! ## Storing one octet (R18) -/

@[simp] theorem State.memWrite_params (s : State) (a : Nat) (o : Octet) : (s.memWrite a o).params = s.params := rfl
@[simp] theorem State.memWrite_hostTurns (s : State) (a : Nat) (o : Octet) : (s.memWrite a o).hostTurns = s.hostTurns := rfl
@[simp] theorem State.memWrite_cfgT23 (s : State) (a : Nat) (o : Octet) : (s.memWrite a o).cfgT23 = s.cfgT23 := rfl
@[simp] theorem State.memWrite_fb (s : State) (a : Nat) (o : Octet) : (s.memWrite a o).fb = s.fb.write a o := rfl
@[simp] theorem State.memWrite_flen (s : State) (a : Nat) (o : Octet) : (s.memWrite a o).flen = s.flen := rfl
@[simp] theorem State.memWrite_phase (s : State) (a : Nat) (o : Octet) : (s.memWrite a o).phase = s.phase := rfl
@[simp] theorem State.memWrite_hc (s : State) (a : Nat) (o : Octet) : (s.memWrite a o).hc = s.hc := rfl
@[simp] theorem State.memWrite_cur (s : State) (a : Nat) (o : Octet) : (s.memWrite a o).cur = s.cur := rfl
@[simp] theorem State.memWrite_hdr (s : State) (a : Nat) (o : Octet) : (s.memWrite a o).hdr = s.hdr := rfl
@[simp] theorem State.memWrite_rlen (s : State) (a : Nat) (o : Octet) : (s.memWrite a o).rlen = s.rlen := rfl
@[simp] theorem State.memWrite_msgq (s : State) (a : Nat) (o : Octet) : (s.memWrite a o).msgq = s.msgq := rfl
@[simp] theorem State.memWrite_fcs0 (s : State) (a : Nat) (o : Octet) : (s.memWrite a o).fcs0 = s.fcs0 := rfl
@[simp] theorem State.memWrite_fcs1 (s : State) (a : Nat) (o : Octet) : (s.memWrite a o).fcs1 = s.fcs1 := rfl
@[simp] theorem State.memWrite_errKind (s : State) (a : Nat) (o : Octet) : (s.memWrite a o).errKind = s.errKind := rfl
@[simp] theorem State.memWrite_errPos (s : State) (a : Nat) (o : Octet) : (s.memWrite a o).errPos = s.errPos := rfl

/-! ## Clearing the results (R331) -/

@[simp] theorem State.clearResults_params (s : State) : (s.clearResults).params = s.params := rfl
@[simp] theorem State.clearResults_hostTurns (s : State) : (s.clearResults).hostTurns = s.hostTurns := rfl
@[simp] theorem State.clearResults_cfgT23 (s : State) : (s.clearResults).cfgT23 = s.cfgT23 := rfl
@[simp] theorem State.clearResults_fb (s : State) : (s.clearResults).fb = s.fb := rfl
@[simp] theorem State.clearResults_flen (s : State) : (s.clearResults).flen = s.flen := rfl
@[simp] theorem State.clearResults_phase (s : State) : (s.clearResults).phase = s.phase := rfl
@[simp] theorem State.clearResults_hc (s : State) : (s.clearResults).hc = 0 := rfl
@[simp] theorem State.clearResults_cur (s : State) : (s.clearResults).cur = 0 := rfl
@[simp] theorem State.clearResults_hdr (s : State) : (s.clearResults).hdr = HeaderRegs.cleared := rfl
@[simp] theorem State.clearResults_rlen (s : State) : (s.clearResults).rlen = 0 := rfl
@[simp] theorem State.clearResults_msgq (s : State) : (s.clearResults).msgq = [] := rfl
@[simp] theorem State.clearResults_fcs0 (s : State) : (s.clearResults).fcs0 = 0 := rfl
@[simp] theorem State.clearResults_fcs1 (s : State) : (s.clearResults).fcs1 = 0 := rfl
@[simp] theorem State.clearResults_errKind (s : State) : (s.clearResults).errKind = s.errKind := rfl
@[simp] theorem State.clearResults_errPos (s : State) : (s.clearResults).errPos = s.errPos := rfl

/-! ## Fault entry (R331) -/

@[simp] theorem State.faultEntry_params (s : State) (e : DecodeError) (p : Nat) : (s.faultEntry e p).params = s.params := rfl
@[simp] theorem State.faultEntry_hostTurns (s : State) (e : DecodeError) (p : Nat) : (s.faultEntry e p).hostTurns = s.hostTurns := rfl
@[simp] theorem State.faultEntry_cfgT23 (s : State) (e : DecodeError) (p : Nat) : (s.faultEntry e p).cfgT23 = s.cfgT23 := rfl
@[simp] theorem State.faultEntry_fb (s : State) (e : DecodeError) (p : Nat) : (s.faultEntry e p).fb = s.fb := rfl
@[simp] theorem State.faultEntry_flen (s : State) (e : DecodeError) (p : Nat) : (s.faultEntry e p).flen = s.flen := rfl
@[simp] theorem State.faultEntry_phase (s : State) (e : DecodeError) (p : Nat) : (s.faultEntry e p).phase = .fault := rfl
@[simp] theorem State.faultEntry_hc (s : State) (e : DecodeError) (p : Nat) : (s.faultEntry e p).hc = 0 := rfl
@[simp] theorem State.faultEntry_cur (s : State) (e : DecodeError) (p : Nat) : (s.faultEntry e p).cur = 0 := rfl
@[simp] theorem State.faultEntry_hdr (s : State) (e : DecodeError) (p : Nat) : (s.faultEntry e p).hdr = HeaderRegs.cleared := rfl
@[simp] theorem State.faultEntry_rlen (s : State) (e : DecodeError) (p : Nat) : (s.faultEntry e p).rlen = 0 := rfl
@[simp] theorem State.faultEntry_msgq (s : State) (e : DecodeError) (p : Nat) : (s.faultEntry e p).msgq = [] := rfl
@[simp] theorem State.faultEntry_fcs0 (s : State) (e : DecodeError) (p : Nat) : (s.faultEntry e p).fcs0 = 0 := rfl
@[simp] theorem State.faultEntry_fcs1 (s : State) (e : DecodeError) (p : Nat) : (s.faultEntry e p).fcs1 = 0 := rfl
@[simp] theorem State.faultEntry_errKind (s : State) (e : DecodeError) (p : Nat) : (s.faultEntry e p).errKind = some e := rfl
@[simp] theorem State.faultEntry_errPos (s : State) (e : DecodeError) (p : Nat) : (s.faultEntry e p).errPos = p := rfl

/-! ## The return to IDLE (R305) -/

@[simp] theorem State.release_params (s : State) : (s.release).params = s.params := rfl
@[simp] theorem State.release_hostTurns (s : State) : (s.release).hostTurns = s.hostTurns := rfl
@[simp] theorem State.release_cfgT23 (s : State) : (s.release).cfgT23 = s.cfgT23 := rfl
@[simp] theorem State.release_fb (s : State) : (s.release).fb = [] := rfl
@[simp] theorem State.release_flen (s : State) : (s.release).flen = 0 := rfl
@[simp] theorem State.release_phase (s : State) : (s.release).phase = .idle := rfl
@[simp] theorem State.release_hc (s : State) : (s.release).hc = 0 := rfl
@[simp] theorem State.release_cur (s : State) : (s.release).cur = 0 := rfl
@[simp] theorem State.release_hdr (s : State) : (s.release).hdr = HeaderRegs.cleared := rfl
@[simp] theorem State.release_rlen (s : State) : (s.release).rlen = 0 := rfl
@[simp] theorem State.release_msgq (s : State) : (s.release).msgq = [] := rfl
@[simp] theorem State.release_fcs0 (s : State) : (s.release).fcs0 = 0 := rfl
@[simp] theorem State.release_fcs1 (s : State) : (s.release).fcs1 = 0 := rfl
@[simp] theorem State.release_errKind (s : State) : (s.release).errKind = none := rfl
@[simp] theorem State.release_errPos (s : State) : (s.release).errPos = 0 := rfl

/-! ## A dispatched message (R210) -/

@[simp] theorem State.appendRecord_params (s : State) (r : Record) : (s.appendRecord r).params = s.params := rfl
@[simp] theorem State.appendRecord_hostTurns (s : State) (r : Record) : (s.appendRecord r).hostTurns = s.hostTurns := rfl
@[simp] theorem State.appendRecord_cfgT23 (s : State) (r : Record) : (s.appendRecord r).cfgT23 = s.cfgT23 := rfl
@[simp] theorem State.appendRecord_fb (s : State) (r : Record) : (s.appendRecord r).fb = s.fb := rfl
@[simp] theorem State.appendRecord_flen (s : State) (r : Record) : (s.appendRecord r).flen = s.flen := rfl
@[simp] theorem State.appendRecord_phase (s : State) (r : Record) : (s.appendRecord r).phase = s.phase := rfl
@[simp] theorem State.appendRecord_hc (s : State) (r : Record) : (s.appendRecord r).hc = s.hc := rfl
@[simp] theorem State.appendRecord_cur (s : State) (r : Record) : (s.appendRecord r).cur = s.cur + r.len := rfl
@[simp] theorem State.appendRecord_hdr (s : State) (r : Record) : (s.appendRecord r).hdr = s.hdr := rfl
@[simp] theorem State.appendRecord_rlen (s : State) (r : Record) : (s.appendRecord r).rlen = s.rlen := rfl
@[simp] theorem State.appendRecord_msgq (s : State) (r : Record) : (s.appendRecord r).msgq = s.msgq ++ [r] := rfl
@[simp] theorem State.appendRecord_fcs0 (s : State) (r : Record) : (s.appendRecord r).fcs0 = s.fcs0 := rfl
@[simp] theorem State.appendRecord_fcs1 (s : State) (r : Record) : (s.appendRecord r).fcs1 = s.fcs1 := rfl
@[simp] theorem State.appendRecord_errKind (s : State) (r : Record) : (s.appendRecord r).errKind = s.errKind := rfl
@[simp] theorem State.appendRecord_errPos (s : State) (r : Record) : (s.appendRecord r).errPos = s.errPos := rfl

/-! ## A skipped octet (R211) -/

@[simp] theorem State.skipFiller_params (s : State) : (s.skipFiller).params = s.params := rfl
@[simp] theorem State.skipFiller_hostTurns (s : State) : (s.skipFiller).hostTurns = s.hostTurns := rfl
@[simp] theorem State.skipFiller_cfgT23 (s : State) : (s.skipFiller).cfgT23 = s.cfgT23 := rfl
@[simp] theorem State.skipFiller_fb (s : State) : (s.skipFiller).fb = s.fb := rfl
@[simp] theorem State.skipFiller_flen (s : State) : (s.skipFiller).flen = s.flen := rfl
@[simp] theorem State.skipFiller_phase (s : State) : (s.skipFiller).phase = s.phase := rfl
@[simp] theorem State.skipFiller_hc (s : State) : (s.skipFiller).hc = s.hc := rfl
@[simp] theorem State.skipFiller_cur (s : State) : (s.skipFiller).cur = s.cur + 1 := rfl
@[simp] theorem State.skipFiller_hdr (s : State) : (s.skipFiller).hdr = s.hdr := rfl
@[simp] theorem State.skipFiller_rlen (s : State) : (s.skipFiller).rlen = s.rlen := rfl
@[simp] theorem State.skipFiller_msgq (s : State) : (s.skipFiller).msgq = s.msgq := rfl
@[simp] theorem State.skipFiller_fcs0 (s : State) : (s.skipFiller).fcs0 = s.fcs0 := rfl
@[simp] theorem State.skipFiller_fcs1 (s : State) : (s.skipFiller).fcs1 = s.fcs1 := rfl
@[simp] theorem State.skipFiller_errKind (s : State) : (s.skipFiller).errKind = s.errKind := rfl
@[simp] theorem State.skipFiller_errPos (s : State) : (s.skipFiller).errPos = s.errPos := rfl

/-! ## A header write (R180) -/

@[simp] theorem State.setHeader_params (s : State) (f : HeaderRegs → HeaderRegs) : (s.setHeader f).params = s.params := rfl
@[simp] theorem State.setHeader_hostTurns (s : State) (f : HeaderRegs → HeaderRegs) : (s.setHeader f).hostTurns = s.hostTurns := rfl
@[simp] theorem State.setHeader_cfgT23 (s : State) (f : HeaderRegs → HeaderRegs) : (s.setHeader f).cfgT23 = s.cfgT23 := rfl
@[simp] theorem State.setHeader_fb (s : State) (f : HeaderRegs → HeaderRegs) : (s.setHeader f).fb = s.fb := rfl
@[simp] theorem State.setHeader_flen (s : State) (f : HeaderRegs → HeaderRegs) : (s.setHeader f).flen = s.flen := rfl
@[simp] theorem State.setHeader_phase (s : State) (f : HeaderRegs → HeaderRegs) : (s.setHeader f).phase = s.phase := rfl
@[simp] theorem State.setHeader_hc (s : State) (f : HeaderRegs → HeaderRegs) : (s.setHeader f).hc = s.hc := rfl
@[simp] theorem State.setHeader_cur (s : State) (f : HeaderRegs → HeaderRegs) : (s.setHeader f).cur = s.cur := rfl
@[simp] theorem State.setHeader_hdr (s : State) (f : HeaderRegs → HeaderRegs) : (s.setHeader f).hdr = f s.hdr := rfl
@[simp] theorem State.setHeader_rlen (s : State) (f : HeaderRegs → HeaderRegs) : (s.setHeader f).rlen = s.rlen := rfl
@[simp] theorem State.setHeader_msgq (s : State) (f : HeaderRegs → HeaderRegs) : (s.setHeader f).msgq = s.msgq := rfl
@[simp] theorem State.setHeader_fcs0 (s : State) (f : HeaderRegs → HeaderRegs) : (s.setHeader f).fcs0 = s.fcs0 := rfl
@[simp] theorem State.setHeader_fcs1 (s : State) (f : HeaderRegs → HeaderRegs) : (s.setHeader f).fcs1 = s.fcs1 := rfl
@[simp] theorem State.setHeader_errKind (s : State) (f : HeaderRegs → HeaderRegs) : (s.setHeader f).errKind = s.errKind := rfl
@[simp] theorem State.setHeader_errPos (s : State) (f : HeaderRegs → HeaderRegs) : (s.setHeader f).errPos = s.errPos := rfl

/-! ## The end of the header step (R308) -/

@[simp] theorem closeHeader_params (s : State) : (closeHeader s).params = s.params := rfl
@[simp] theorem closeHeader_hostTurns (s : State) : (closeHeader s).hostTurns = s.hostTurns := rfl
@[simp] theorem closeHeader_cfgT23 (s : State) : (closeHeader s).cfgT23 = s.cfgT23 := rfl
@[simp] theorem closeHeader_fb (s : State) : (closeHeader s).fb = s.fb := rfl
@[simp] theorem closeHeader_flen (s : State) : (closeHeader s).flen = s.flen := rfl
@[simp] theorem closeHeader_phase (s : State) : (closeHeader s).phase = .disp := rfl
@[simp] theorem closeHeader_hc (s : State) : (closeHeader s).hc = s.hc := rfl
@[simp] theorem closeHeader_cur (s : State) : (closeHeader s).cur = 0 := rfl
@[simp] theorem closeHeader_hdr (s : State) : (closeHeader s).hdr = { s.hdr with hlen := s.hc } := rfl
@[simp] theorem closeHeader_rlen (s : State) : (closeHeader s).rlen = s.flen - 2 - s.hc := rfl
@[simp] theorem closeHeader_msgq (s : State) : (closeHeader s).msgq = [] := rfl
@[simp] theorem closeHeader_fcs0 (s : State) : (closeHeader s).fcs0 = s.fcs0 := rfl
@[simp] theorem closeHeader_fcs1 (s : State) : (closeHeader s).fcs1 = s.fcs1 := rfl
@[simp] theorem closeHeader_errKind (s : State) : (closeHeader s).errKind = s.errKind := rfl
@[simp] theorem closeHeader_errPos (s : State) : (closeHeader s).errPos = s.errPos := rfl

end Sys2Proof.Machine
end

