-- ==== Sys2Proof/Laws/Ops.lean ====
section
/-! SUPPORT. What each shared operation can do, said once: a proof cites these instead of unfolding the operation. -/

namespace Sys2Proof.Machine

/-! ## Memory reads -/

/-- A read inside FLEN answers the octets; one that passes FLEN raises OutOfRange (R18). -/
theorem memRead_ok (s : State) (a n : Nat) (h : a + n ≤ s.flen) :
    s.memRead a n = .ok ((List.range n).map fun i => s.fb.read (a + i)) := if_pos h

theorem memRead_error (s : State) (a n : Nat) (h : s.flen < a + n) : s.memRead a n = .error .outOfRange :=
  if_neg (by omega)

theorem memRead_cases (s : State) (a n : Nat) :
    (a + n ≤ s.flen ∧ s.memRead a n = .ok ((List.range n).map fun i => s.fb.read (a + i))) ∨
    (s.flen < a + n ∧ s.memRead a n = .error .outOfRange) := by
  rcases Nat.lt_or_ge s.flen (a + n) with h | h
  · exact .inr ⟨h, memRead_error s a n h⟩
  · exact .inl ⟨h, memRead_ok s a n h⟩

theorem memRead_length {s : State} {a n : Nat} {os : List Octet} (h : s.memRead a n = .ok os) :
    os.length = n ∧ a + n ≤ s.flen := by
  rcases memRead_cases s a n with ⟨hl, e⟩ | ⟨_, e⟩
  · rw [e] at h; cases h; simp [hl]
  · rw [e] at h; cases h

/-! ## Message length (R203) -/

/-- A length that `msgLen` answers is at least 3 and fits in what remains of the region (R207). -/
theorem msgLen_ok_bounds {p : Params} {k : Kind} {rem n : Nat} {lf : Octet} (h : msgLen p k rem lf = .ok n) :
    3 ≤ n ∧ n ≤ rem := by
  unfold msgLen at h
  cases k <;> simp only [policy] at h <;> (repeat' split at h) <;> cases h <;> omega

/-- The error of `msgLen` is TruncatedMessage or OutOfRange, never FrameTooShort (R320). -/
theorem msgLen_error_kind {p : Params} {k : Kind} {rem : Nat} {lf : Octet} {e : DecodeError}
    (h : msgLen p k rem lf = .error e) : e = .truncatedMessage ∨ e = .outOfRange := by
  unfold msgLen at h
  cases k <;> simp only [policy] at h <;> (repeat' split at h) <;> cases h <;> simp

theorem makeRecord_ok {p : Params} {k : Kind} {lf : Octet} {f : Fields} {off rem : Nat} {r : Record}
    (h : makeRecord p k lf f off rem = .ok r) :
    msgLen p k rem lf = .ok r.len ∧ r.kind = k ∧ r.tag = tagOf p.tagmap k ∧ r.off = off ∧ r.fields = f := by
  unfold makeRecord at h
  split at h
  · cases h
  · cases h; exact ⟨by assumption, rfl, rfl, rfl, rfl⟩

theorem makeRecord_error {p : Params} {k : Kind} {lf : Octet} {f : Fields} {off rem : Nat} {e : DecodeError}
    (h : makeRecord p k lf f off rem = .error e) : msgLen p k rem lf = .error e := by
  unfold makeRecord at h
  split at h
  · cases h; assumption
  · cases h

theorem makeRecord_of_len {p : Params} {k : Kind} {lf : Octet} {f : Fields} {off rem n : Nat}
    (h : msgLen p k rem lf = .ok n) :
    makeRecord p k lf f off rem = .ok { kind := k, tag := tagOf p.tagmap k, off := off, len := n, fields := f } := by
  simp [makeRecord, h]

theorem makeRecord_of_error {p : Params} {k : Kind} {lf : Octet} {f : Fields} {off rem : Nat} {e : DecodeError}
    (h : msgLen p k rem lf = .error e) : makeRecord p k lf f off rem = .error e := by
  simp [makeRecord, h]

/-! ## The dispatch of a message (R210) -/

/-- Everything a dispatch can do: it is not enabled; or the length raises and the error is taken at the tag's frame
offset; or a record is appended and the cursor moves past the message. -/
theorem dispatchMessage_cases (s : State) (k : Kind) (lf : Octet) (f : Fields) :
    (¬ (s.phase = .disp ∧ s.cur < s.rlen) ∧ dispatchMessage s k lf f = .fault .stepNotEnabled) ∨
    (s.phase = .disp ∧ s.cur < s.rlen ∧ ∃ e, msgLen s.params k (s.rlen - s.cur) lf = .error e ∧
      dispatchMessage s k lf f = .next (s.faultEntry e (s.hdr.hlen + s.cur))) ∨
    (s.phase = .disp ∧ s.cur < s.rlen ∧ ∃ n, msgLen s.params k (s.rlen - s.cur) lf = .ok n ∧
      dispatchMessage s k lf f =
        .next (s.appendRecord { kind := k, tag := tagOf s.params.tagmap k, off := s.cur, len := n, fields := f })) := by
  by_cases hg : s.phase = .disp ∧ s.cur < s.rlen
  · cases hl : msgLen s.params k (s.rlen - s.cur) lf with
    | error e =>
      refine .inr (.inl ⟨hg.1, hg.2, e, rfl, ?_⟩)
      simp [dispatchMessage, hg, makeRecord, hl]
    | ok n =>
      refine .inr (.inr ⟨hg.1, hg.2, n, rfl, ?_⟩)
      simp [dispatchMessage, hg, makeRecord, hl]
  · exact .inl ⟨hg, by simp [dispatchMessage, hg]⟩

/-- Every message row is the dispatch of what it delivers. -/
theorem exec_message {i : Instr} {s : State} {k : Kind} {lf : Octet} {f : Fields}
    (h : deliver s.params i = some (k, lf, f)) : exec i s = dispatchMessage s k lf f := by
  cases i <;> simp only [deliver] at h <;> cases h <;> rfl

/-! ## Rows of the frame-control word -/

/-- What a row of the frame-control word does outside the header step: nothing, it stops. -/
theorem exec_row_outside {i : Instr} {s : State} (hk : i.kind? = none) (hp : s.phase ≠ .hdr) :
    exec i s = .fault .stepNotEnabled := by
  cases i <;> first | (simp [Instr.kind?] at hk; done) | (exact if_neg hp)

/-- A row's part of the state: the header registers and the header cursor, nothing else. -/
def SameButHeader (s t : State) : Prop :=
  t.params = s.params ∧ t.hostTurns = s.hostTurns ∧ t.cfgT23 = s.cfgT23 ∧ t.fb = s.fb ∧ t.flen = s.flen ∧
  t.phase = s.phase ∧ t.cur = s.cur ∧ t.rlen = s.rlen ∧ t.msgq = s.msgq ∧ t.fcs0 = s.fcs0 ∧ t.fcs1 = s.fcs1 ∧
  t.errKind = s.errKind ∧ t.errPos = s.errPos

theorem SameButHeader.refl (s : State) : SameButHeader s s := ⟨rfl, rfl, rfl, rfl, rfl, rfl, rfl, rfl, rfl, rfl, rfl, rfl, rfl⟩

theorem SameButHeader.trans {s t u : State} (h : SameButHeader s t) (g : SameButHeader t u) : SameButHeader s u := by
  unfold SameButHeader at *
  simp_all

/-- The destination step: fields written and the cursor moved, or OutOfRange taken (R183 to R185, R18). -/
theorem destinationPresent_cases (s : State) (mode : AddrMode) (n : Nat) :
    (s.hc + 2 + n ≤ s.flen ∧ destinationPresent s mode n =
      .next { s with
        hc := s.hc + 2 + n,
        hdr := { s.hdr with dam := mode, dpanV := true, daddrV := true,
                            dpan := BitVec.ofNat 16 (LE ((List.range 2).map fun i => s.fb.read (s.hc + i))),
                            daddr := BitVec.ofNat 64 (LE ((List.range n).map fun i => s.fb.read (s.hc + 2 + i))) } }) ∨
    (s.flen < s.hc + 2 + n ∧ ∃ pos, destinationPresent s mode n = .next (s.faultEntry .outOfRange pos)) := by
  rcases memRead_cases s s.hc 2 with ⟨h1, e1⟩ | ⟨h1, e1⟩
  · rcases memRead_cases s (s.hc + 2) n with ⟨h2, e2⟩ | ⟨h2, e2⟩
    · exact .inl ⟨h2, by simp only [destinationPresent, e1, e2, State.setHeader]⟩
    · exact .inr ⟨h2, s.hc + 2, by simp only [destinationPresent, e1, e2]⟩
  · exact .inr ⟨by omega, s.hc, by simp only [destinationPresent, e1]⟩

/-- The source address (R187): written, or OutOfRange taken. -/
theorem sourceAddress_cases (s : State) (mode : AddrMode) (n pos : Nat) (v : Bool) (span : BitVec 16) :
    (pos + n ≤ s.flen ∧ sourceAddress s mode n pos v span =
      .next { s with
        hc := pos + n,
        hdr := { s.hdr with sam := mode, spanV := v, span := span, saddrV := true,
                            saddr := BitVec.ofNat 64 (LE ((List.range n).map fun i => s.fb.read (pos + i))) } }) ∨
    (s.flen < pos + n ∧ sourceAddress s mode n pos v span = .next (s.faultEntry .outOfRange pos)) := by
  rcases memRead_cases s pos n with ⟨h, e⟩ | ⟨h, e⟩
  · exact .inl ⟨h, by simp only [sourceAddress, e, State.setHeader]⟩
  · exact .inr ⟨h, by simp only [sourceAddress, e]⟩

/-- Everything a row of the frame-control word can do within the header step: change header registers and the header
cursor only, or take OutOfRange. -/
theorem exec_row_cases {i : Instr} {s : State} (hk : i.kind? = none) (hp : s.phase = .hdr) :
    (∃ t, exec i s = .next t ∧ SameButHeader s t) ∨ ∃ pos, exec i s = .next (s.faultEntry .outOfRange pos) := by
  have dest : ∀ mode n, (∃ t, destinationPresent s mode n = .next t ∧ SameButHeader s t) ∨
      ∃ pos, destinationPresent s mode n = .next (s.faultEntry .outOfRange pos) := by
    intro mode n
    rcases destinationPresent_cases s mode n with ⟨_, e⟩ | ⟨_, pos, e⟩
    · exact .inl ⟨_, e, SameButHeader.refl s⟩
    · exact .inr ⟨pos, e⟩
  have addr : ∀ mode n pos v span, (∃ t, sourceAddress s mode n pos v span = .next t ∧ SameButHeader s t) ∨
      ∃ pos', sourceAddress s mode n pos v span = .next (s.faultEntry .outOfRange pos') := by
    intro mode n pos v span
    rcases sourceAddress_cases s mode n pos v span with ⟨_, e⟩ | ⟨_, e⟩
    · exact .inl ⟨_, e, SameButHeader.refl s⟩
    · exact .inr ⟨pos, e⟩
  have src : ∀ mode n, (∃ t, sourcePresent s mode n = .next t ∧ SameButHeader s t) ∨
      ∃ pos, sourcePresent s mode n = .next (s.faultEntry .outOfRange pos) := by
    intro mode n
    unfold sourcePresent
    split
    · exact addr ..
    · rcases memRead_cases s s.hc 2 with ⟨_, e⟩ | ⟨_, e⟩
      · simp only [e]; exact addr ..
      · simp only [e]; exact .inr ⟨_, rfl⟩
  have inside : ∀ act : Result, inHeaderStep s act = act := fun act => if_pos hp
  cases i <;> first
    | (simp [Instr.kind?] at hk; done)
    | (simp only [exec, execDamShort16, execDamLong64, inside]; exact dest ..)
    | (simp only [exec, execSamShort16, execSamLong64, inside]; exact src ..)
    | (exact .inl ⟨_, inside _, SameButHeader.refl s⟩)

end Sys2Proof.Machine
end

