-- ==== Sys2Proof/Laws/PerInstr.lean ====
section
/-! SUPPORT. The per-instruction family EncodedLength (LAWS.json): a well-formed instruction encodes to exactly the octets its
length policy gives (30_encoding.md R114), for any parameters. -/

namespace Sys2Proof.Laws.EncodedLength

open Sys2Proof.Machine

/-- The encoding of a well-formed instruction has the length of its policy. -/
def Statement (i : Instr) : Prop := ∀ p : Params, WellFormed p i = true → (encode p i).length = encodedLength p i

theorem bufferLength {scale : Nat} {lf : Octet} {buf : List Octet} (h : trailingPartOk scale lf buf = true) :
    buf.length = scale * lf.toNat := by
  simp only [trailingPartOk, bufferFits, Bool.and_eq_true, beq_iff_eq] at h
  exact h.2

theorem beacon (m : BeaconBody) : Statement (.beacon m) := fun p _ => by simp [encode, encodedLength]
theorem joinRequest (m : JoinRequestBody) : Statement (.joinRequest m) := fun p _ => by simp [encode, encodedLength]
theorem joinConfirmation (m : JoinConfirmationBody) : Statement (.joinConfirmation m) :=
  fun p _ => by simp [encode, encodedLength]
theorem almanac (m : AlmanacBody) : Statement (.almanac m) := fun p _ => by simp [encode, encodedLength]
theorem service (m : ServiceBody) : Statement (.service m) := fun p h => by
  have := bufferLength h
  simp only [encode, encodedLength, List.length_cons, List.length_append, littleOctets_length]; omega
theorem fwUpdateRequest (m : FwUpdateRequestBody) : Statement (.fwUpdateRequest m) :=
  fun p _ => by simp [encode, encodedLength]
theorem fwUpdateData (m : FwUpdateDataBody) : Statement (.fwUpdateData m) := fun p h => by
  have := bufferLength h
  simp only [encode, encodedLength, List.length_cons, List.length_append, littleOctets_length]; omega
theorem position (m : PositionBody) : Statement (.position m) := fun p _ => by simp [encode, encodedLength]
theorem groupPoll (m : GroupPollBody) : Statement (.groupPoll m) := fun p _ => by simp [encode, encodedLength]
theorem response (m : ResponseBody) : Statement (.response m) := fun p _ => by simp [encode, encodedLength]
theorem bridgeNodeBeacon (m : BridgeNodeBeaconBody) : Statement (.bridgeNodeBeacon m) := fun p h => by
  have := bufferLength h
  simp only [encode, encodedLength, List.length_cons, List.length_append, littleOctets_length]; omega
theorem iotDataDownlink (m : IotDataBody) : Statement (.iotDataDownlink m) := fun p h => by
  have := bufferLength h
  simp only [encode, encodedLength, List.length_cons, List.length_append, littleOctets_length]; omega
theorem iotDataUplink (m : IotDataBody) : Statement (.iotDataUplink m) := fun p h => by
  have := bufferLength h
  simp only [encode, encodedLength, List.length_cons, List.length_append, littleOctets_length]; omega
theorem frameControl (fcw : BitVec 16) : Statement (.frameControl fcw) := fun _ _ => littleOctets_length ..
theorem ftBeacon : Statement .ftBeacon := fun _ _ => rfl
theorem ftData : Statement .ftData := fun _ _ => rfl
theorem ftAcknowledgement : Statement .ftAcknowledgement := fun _ _ => rfl
theorem ftMacCommand : Statement .ftMacCommand := fun _ _ => rfl
theorem ftReserved (raw : BitVec 3) : Statement (.ftReserved raw) := fun _ _ => littleOctets_length ..
theorem flagSec : Statement .flagSec := fun _ _ => rfl
theorem flagFp : Statement .flagFp := fun _ _ => rfl
theorem flagAr : Statement .flagAr := fun _ _ => rfl
theorem flagPic : Statement .flagPic := fun _ _ => rfl
theorem damNoAddress : Statement .damNoAddress := fun _ _ => rfl
theorem damReserved : Statement .damReserved := fun _ _ => rfl
theorem damShort16 : Statement .damShort16 := fun _ _ => rfl
theorem damLong64 : Statement .damLong64 := fun _ _ => rfl
theorem samNoAddress : Statement .samNoAddress := fun _ _ => rfl
theorem samReserved : Statement .samReserved := fun _ _ => rfl
theorem samShort16 : Statement .samShort16 := fun _ _ => rfl
theorem samLong64 : Statement .samLong64 := fun _ _ => rfl

end Sys2Proof.Laws.EncodedLength
end

