-- ==== Sys2Proof/Tests/Slice0.lean ====
section
/-! SUPPORT. Small tests, each on fixed values: the smoke tests of WellFormed, the decoding of words written out from the
spec's encodings, one step of each row, and a witness for every statement that has hypotheses. Expected values are those of
spec/95_test_vectors.md (V-numbers, S-numbers) and of the rules' own examples. -/

namespace Sys2Proof.Tests

open Sys2Proof.Machine

/-! ## Helpers -/

/-- The reference parameters with BNB_SCALE 2. -/
def scaleTwo : Params := { Params.reference with bnbScale := .two }

/-- A block that holds the frame `ns` whole, header step pending. -/
def held (ns : List Nat) : State :=
  { State.reset with fb := Memory.load (octets ns), flen := ns.length, phase := .hdr }

/-- A block about to dispatch over the region `ns`: a 3-octet header before it, two FCS octets after it. -/
def atRegion (p : Params) (t23 : Bool) (ns : List Nat) : State :=
  { State.resetWith p with
    fb := Memory.load (octets ([0, 0, 1] ++ ns ++ [0, 0])), flen := ns.length + 5, phase := .disp, cfgT23 := t23, hc := 3
    hdr := { hlen := 3 }, rlen := ns.length }

/-- A header step under way: the cursor at 3, PIC as given, in a frame of `n` octets `0x11`. -/
def walking (pic : Bool) (n : Nat) : State :=
  { held (List.replicate n 0x11) with hc := 3, hdr := { pic := pic } }

/-- The queue and the region cursor after a step. -/
def queued : Result → List Record × Nat
  | .next s => (s.msgq, s.cur)
  | .fault _ => ([], 0)
  | .refused _ => ([], 0)

/-- The error kind and position after a step. -/
def errorOf : Result → Option DecodeError × Nat
  | .next s => (s.errKind, s.errPos)
  | .fault _ => (none, 0)
  | .refused _ => (none, 0)

/-- The header registers and the header cursor after a step. -/
def headerOf : Result → Option (HeaderRegs × Nat)
  | .next s => some (s.hdr, s.hc)
  | .fault _ => none
  | .refused _ => none

/-- The phase after a step. -/
def phaseOf : Result → Option Phase
  | .next s => some s.phase
  | .fault _ => none
  | .refused _ => none

/-! ## WellFormed refuses each kind of ill-formed term -/

theorem test_wf_reserved_code : WellFormed Params.reference (.ftReserved 3) = false := by decide
theorem test_wf_service_length : WellFormed Params.reference (.service ⟨0, 2, octets [1]⟩) = false := by decide
theorem test_wf_service_sign : WellFormed Params.reference (.service ⟨0, 0x80, List.replicate 128 0⟩) = false := by decide
theorem test_wf_fwdata_length : WellFormed Params.reference (.fwUpdateData ⟨0, 0, 0, 0, octets [1]⟩) = false := by decide
theorem test_wf_bridge_scale : WellFormed scaleTwo (.bridgeNodeBeacon ⟨0, 0, 0, 0, 2, octets [1, 0]⟩) = false := by decide
theorem test_wf_downlink_length : WellFormed Params.reference (.iotDataDownlink ⟨0, 0, 0, 1, []⟩) = false := by decide
theorem test_wf_uplink_sign : WellFormed Params.reference (.iotDataUplink ⟨0, 0, 0, 0xff, List.replicate 255 0⟩) = false := by
  decide

/-! ## Written-out words decode to their rows -/

theorem test_decode_beacon : decodeRegion Params.reference false (octets [0x10, 0x01, 0x03, 0x80, 0x02, 0x01, 0x05, 0x0f, 0, 0, 0,
      0x01, 0x80, 0, 1, 2, 3, 4, 5, 6, 7, 8, 9]) =
    .instr (.beacon ⟨0x01, 0x8003, 0x0102, 0x05, 0x0000000f, 0x8001, 0x09080706050403020100⟩) := by decide -- V60
theorem test_decode_joinRequest : decodeRegion Params.reference false (octets [0x12, 4, 3, 2, 1, 8, 7, 6, 5, 0xef, 0xbe, 0xad, 0xde,
      1, 0, 0, 0x80, 0x81]) =
    .instr (.joinRequest ⟨0x01020304, 0x05060708, 0xdeadbeef, 0x80000001, 0x81⟩) := by decide -- V62
theorem test_decode_joinConfirmation : decodeRegion Params.reference false (octets [0x13, 0x0b, 0x0a, 0x01, 0x03]) =
    .instr (.joinConfirmation ⟨0x0a0b, 0x01, 0x03⟩) := by decide -- V64
theorem test_decode_almanac : decodeRegion Params.reference false (octets [0x23, 0, 1, 2, 3, 4, 5, 6, 7, 8, 9, 4, 3, 2, 1, 8, 7, 6, 5,
      0, 0x10, 0, 0, 0, 0x20, 0, 0, 0x11, 0x11, 0x11, 0x11, 0x22, 0x22, 0x22, 0x22, 0x88, 0x77, 0x66, 0x55, 0x44, 0x33, 0x22,
      0x11, 1, 0, 0, 0x80]) =
    .instr (.almanac ⟨0x09080706050403020100, 0x01020304, 0x05060708, 0x00001000, 0x00002000, 0x11111111, 0x22222222,
      0x1122334455667788, 0x80000001⟩) := by decide -- V66
theorem test_decode_service : decodeRegion Params.reference true (octets [0x23, 0x05, 0x03, 0xaa, 0xbb, 0xcc]) =
    .instr (.service ⟨0x05, 3, octets [0xaa, 0xbb, 0xcc]⟩) := by decide -- V80
theorem test_decode_fwUpdateRequest : decodeRegion Params.reference false (octets [0x18, 1, 0xfe, 0xff, 1, 0, 2, 0, 3, 0, 4, 0, 0, 1, 0,
      0, 0, 0, 2, 0, 0x78, 0x56, 0x34, 0x12]) =
    .instr (.fwUpdateRequest ⟨1, 0xfffe, 1, 2, 3, 4, 0x100, 0x20000, 0x12345678⟩) := by decide -- V68
theorem test_decode_fwUpdateData : decodeRegion Params.reference false (octets [0x21, 1, 3, 0, 0, 1, 2, 4, 0xde, 0xad, 0xbe, 0xef]) =
    .instr (.fwUpdateData ⟨1, 3, 0x020100, 4, octets [0xde, 0xad, 0xbe, 0xef]⟩) := by decide -- V82
theorem test_decode_position : decodeRegion Params.reference false (octets [0x22, 0, 0, 0x48, 0x42, 0, 0, 0xc0, 0xbf, 0, 0, 0, 0, 0, 0,
      0, 0]) = .instr (.position ⟨0x42480000, 0xbfc00000, 0, 0⟩) := by decide -- V70
theorem test_decode_groupPoll : decodeRegion Params.reference false (octets [0x30, 1, 0x80, 0x64, 0, 1, 0, 2, 0, 3, 0, 4, 0, 7, 0xe4, 0,
      0, 0x80, 0x3f, 0, 0, 0, 0x40, 0, 0, 0x40, 0x40, 0, 0]) =
    .instr (.groupPoll ⟨0x8001, 100, 1, 2, 3, 4, 7, 0xe4, 0x3f800000, 0x40000000, 0x40400000, 0⟩) := by decide -- V72
theorem test_decode_response : decodeRegion Params.reference false (octets [0x31, 0x81, 3, 0, 0x78, 0x56, 0x34, 0x12, 0xf0, 0xde, 0xbc,
      0x9a, 0, 1, 2, 3, 4, 5, 6, 7, 8, 9]) =
    .instr (.response ⟨0x81, 3, 0x12345678, 0x9abcdef0, 0x09080706050403020100⟩) := by decide -- V74
theorem test_decode_bridgeNodeBeacon : decodeRegion scaleTwo false (octets [0x63, 0x0f, 0, 0, 0, 0x34, 0x12, 1, 2, 3, 1, 0, 2, 0, 3, 0]) =
    .instr (.bridgeNodeBeacon ⟨0xf, 0x1234, 1, 2, 3, octets [1, 0, 2, 0, 3, 0]⟩) := by decide -- V86
theorem test_decode_iotDataDownlink : decodeRegion Params.reference false (octets [0x65, 0x34, 0x12, 0x81, 0x0a, 0, 4, 0xca, 0xfe, 0xba,
      0xbe]) = .instr (.iotDataDownlink ⟨0x1234, 0x81, 0xa, 4, octets [0xca, 0xfe, 0xba, 0xbe]⟩) := by decide -- V88
theorem test_decode_iotDataUplink : decodeRegion Params.reference false (octets [0x6a, 0x34, 0x12, 0, 0xe8, 3, 2, 0x10, 0x23]) =
    .instr (.iotDataUplink ⟨0x1234, 0, 0x3e8, 2, octets [0x10, 0x23]⟩) := by decide -- V89a
theorem test_decode_filler : decodeRegion Params.reference false (octets [0x90]) = .filler 0x90 := by decide -- V106

/-- The word of the two octets of a frame-control word, low octet first (R102). -/
def fcw (o0 o1 : Nat) : BitVec 16 := BitVec.ofNat 16 (LE (octets [o0, o1]))

theorem test_decode_frameControl : decodeFrameControl (fcw 0x29 0x9c) =
    [.frameControl 0x9c29, .ftData, .flagSec, .flagAr, .damLong64, .samShort16] := by decide -- V35
theorem test_decode_ftBeacon : .ftBeacon ∈ decodeFrameControl (fcw 0x08 0x00) := by decide -- V45
theorem test_decode_ftData : .ftData ∈ decodeFrameControl (fcw 0x01 0x00) := by decide -- V42
theorem test_decode_ftAcknowledgement : .ftAcknowledgement ∈ decodeFrameControl (fcw 0x02 0x00) := by decide -- V43
theorem test_decode_ftMacCommand : .ftMacCommand ∈ decodeFrameControl (fcw 0x03 0x44) := by decide -- V37
theorem test_decode_ftReserved : .ftReserved 7 ∈ decodeFrameControl (fcw 0x07 0x00) := by decide -- V40
theorem test_decode_flags : decodeFrameControl (fcw 0xff 0xff) = [.frameControl 0xffff, .ftReserved 7, .flagSec, .flagFp, .flagAr,
    .flagPic, .damLong64, .samLong64] := by decide -- V32
theorem test_decode_modes : decodeFrameControl (fcw 0x01 0x44) = [.frameControl 0x4401, .ftData, .damReserved, .samReserved] ∧
    .damShort16 ∈ decodeFrameControl (fcw 0x00 0x08) ∧ .samShort16 ∈ decodeFrameControl (fcw 0x00 0x80) ∧
    .damNoAddress ∈ decodeFrameControl (fcw 0x00 0x80) ∧ .samNoAddress ∈ decodeFrameControl (fcw 0x00 0x08) := by
  decide -- V30, V53, V57
theorem test_table_word : decodeTableWord 8 0x13 = some (.joinConfirmation ⟨0, 0, 0⟩) ∧
    decodeTableWord 16 0x8000 = some .samShort16 ∧ decodeTableWord 0 0 = some (.frameControl 0) := by decide

/-! ## One step of each message -/

theorem test_step_beacon : (queued (step (atRegion Params.reference false ([0x10, 0x01, 0x03, 0x80, 0x02, 0x01, 0x05, 0x0f, 0, 0, 0, 0x01,
      0x80, 0, 1, 2, 3, 4, 5, 6, 7, 8, 9] ++ [0x10])))) =
    ([⟨.beacon, 0x10, 0, 23, .beacon ⟨0x01, 0x8003, 0x0102, 0x05, 0xf, 0x8001, 0x09080706050403020100⟩⟩], 23) := by decide -- V60
theorem test_step_joinRequest : queued (step (atRegion Params.reference false (0x12 :: List.replicate 17 0xff))) =
    ([⟨.joinRequest, 0x12, 0, 18, .joinRequest ⟨0xffffffff, 0xffffffff, 0xffffffff, 0xffffffff, 0xff⟩⟩], 18) := by decide -- V63
theorem test_step_joinConfirmation : queued (step (atRegion Params.reference false [0x13, 0x13, 0x13, 0x13, 0x13, 0x13])) =
    ([⟨.joinConfirmation, 0x13, 0, 5, .joinConfirmation ⟨0x1313, 0x13, 0x13⟩⟩], 5) := by decide -- V103
theorem test_step_almanac_truncated : errorOf (step (atRegion Params.reference false [0x23, 0x05, 0x03, 0xaa, 0xbb, 0xcc])) =
    (some .truncatedMessage, 3) := by decide -- V141
theorem test_step_service : queued (step (atRegion Params.reference true [0x23, 0x05, 0x03, 0xaa, 0xbb, 0xcc])) =
    ([⟨.service, 0x23, 0, 6, .service ⟨0x05, 3, octets [0xaa, 0xbb, 0xcc]⟩⟩], 6) := by decide -- V95
theorem test_step_service_negative : errorOf (step (atRegion Params.reference true [0x23, 0x05, 0x80, 0x00])) =
    (some .outOfRange, 3) := by decide -- V98
theorem test_step_fwUpdateRequest : queued (step (atRegion Params.reference false (0x18 :: List.replicate 23 0xff))) =
    ([⟨.fwUpdateRequest, 0x18, 0, 24, .fwUpdateRequest ⟨0xff, -1, 0xffff, 0xffff, 0xffff, 0xffff, 0xffffffff, 0xffffffff,
      0xffffffff⟩⟩], 24) := by decide -- V69
theorem test_step_fwUpdateData : queued (step (atRegion Params.reference false [0x21, 0xff, 0xff, 0xff, 0xff, 0xff, 0xff, 0])) =
    ([⟨.fwUpdateData, 0x21, 0, 8, .fwUpdateData ⟨0xff, 0xffff, 0xffffff, 0, []⟩⟩], 8) := by decide -- V83
theorem test_step_position : queued (step (atRegion Params.reference false [0x22, 0, 0, 0x48, 0x42, 0, 0, 0xc0, 0xbf, 0, 0, 0, 0, 0, 0, 0,
      0])) = ([⟨.position, 0x22, 0, 17, .position ⟨0x42480000, 0xbfc00000, 0, 0⟩⟩], 17) := by decide -- V70
theorem test_step_groupPoll : queued (step (atRegion { Params.reference with qfMode := .masked7 } false (0x30 :: List.replicate 28 0xff))) =
    ([⟨.groupPoll, 0x30, 0, 29, .groupPoll ⟨0xffff, -1, 0xffff, 0xffff, 0xffff, 0xffff, 0xff, 0xff, true, 0x7f, 0xffffffff,
      0xffffffff, 0xffffffff, 0xffff⟩⟩], 29) := by decide -- V73
theorem test_step_response : queued (step (atRegion Params.reference false [0x31, 0x81, 3, 0, 0x78, 0x56, 0x34, 0x12, 0xf0, 0xde, 0xbc,
      0x9a, 0, 1, 2, 3, 4, 5, 6, 7, 8, 9])) =
    ([⟨.response, 0x31, 0, 22, .response ⟨0x81, 3, 0x12345678, 0x9abcdef0, 0x09080706050403020100⟩⟩], 22) := by decide -- V74
theorem test_step_bridgeNodeBeacon : queued (step (atRegion Params.reference false [0x63, 0x0f, 0, 0, 0, 0x34, 0x12, 1, 2, 3, 1, 0, 2])) =
    ([⟨.bridgeNodeBeacon, 0x63, 0, 13, .bridgeNodeBeacon ⟨0xf, 0x1234, 1, 2, 3, octets [1, 0, 2], [1], octets [2]⟩⟩], 13) := by
  decide -- V85
theorem test_step_iotDataDownlink : queued (step (atRegion Params.reference false [0x65, 0x34, 0x12, 0x81, 0x0a, 0, 4, 0xca, 0xfe, 0xba,
      0xbe])) = ([⟨.iotDataDownlink, 0x65, 0, 11, .iotDataDownlink ⟨0x1234, 0x81, 0xa, 4, octets [0xca, 0xfe, 0xba, 0xbe]⟩⟩], 11) := by
  decide -- V88
theorem test_step_iotDataUplink : queued (step (atRegion Params.reference false [0x6a, 0x34, 0x12, 0, 0xe8, 3, 0])) =
    ([⟨.iotDataUplink, 0x6a, 0, 7, .iotDataUplink ⟨0x1234, 0, 0x3e8, 0, []⟩⟩], 7) := by decide -- V89
theorem test_step_filler : queued (step (atRegion Params.reference false [0x90, 0x10])) = ([], 1) := by decide -- V106

/-! ## One step of each row of the frame-control word -/

theorem test_exec_frameControl : headerOf (exec (.frameControl (fcw 0xc1 0x8b)) (held [0xc1, 0x8b])) =
    some ({ fcw := 0x8bc1, ft := .data, pic := true, dam := .short16, sam := .short16 }, 2) := by decide -- V34
theorem test_exec_frameTypes : headerOf (exec .ftData (held [1, 0])) = some ({ ft := .data }, 0) ∧
    headerOf (exec .ftBeacon (held [0, 0])) = some ({}, 0) ∧
    headerOf (exec .ftAcknowledgement (held [2, 0])) = some ({ ft := .acknowledgement }, 0) ∧
    headerOf (exec .ftMacCommand (held [3, 0])) = some ({ ft := .macCommand }, 0) ∧
    headerOf (exec (.ftReserved 4) (held [4, 0])) = some ({ ft := .reserved }, 0) := by decide -- V31, V36, V37, V39, V42
theorem test_exec_flags : headerOf (exec .flagSec (held [8, 0])) = some ({ sec := true }, 0) ∧
    headerOf (exec .flagFp (held [0x10, 0])) = some ({ fp := true }, 0) ∧
    headerOf (exec .flagAr (held [0x20, 0])) = some ({ ar := true }, 0) ∧
    headerOf (exec .flagPic (held [0x40, 0])) = some ({ pic := true }, 0) := by decide -- V45 to V48
theorem test_exec_destination : headerOf (exec .damNoAddress (walking false 8)) = some ({}, 3) ∧
    headerOf (exec .damReserved (walking false 8)) = some ({ dam := .reserved }, 3) ∧
    headerOf (exec .damShort16 (walking false 7)) =
      some ({ dam := .short16, dpanV := true, dpan := 0x1111, daddrV := true, daddr := 0x1111 }, 7) ∧
    headerOf (exec .damLong64 (walking false 13)) =
      some ({ dam := .long64, dpanV := true, dpan := 0x1111, daddrV := true, daddr := 0x1111111111111111 }, 13) := by decide
theorem test_exec_source : headerOf (exec .samNoAddress (walking false 8)) = some ({}, 3) ∧
    headerOf (exec .samReserved (walking true 8)) = some ({ pic := true, sam := .reserved }, 3) ∧
    headerOf (exec .samShort16 (walking true 5)) =
      some ({ pic := true, sam := .short16, saddrV := true, saddr := 0x1111 }, 5) ∧
    headerOf (exec .samLong64 (walking false 13)) =
      some ({ sam := .long64, spanV := true, span := 0x1111, saddrV := true, saddr := 0x1111111111111111 }, 13) := by decide

/-! ## The header step, the finishing step and the host's operations -/

theorem test_header_step : headerOf (step (held [0x29, 0x9c, 0x07, 0x34, 0x12, 8, 7, 6, 5, 4, 3, 2, 1, 0xef, 0xbe, 0xcd, 0xab, 0, 0])) =
    some ({ fcw := 0x9c29, ft := .data, sec := true, ar := true, dam := .long64, fv := 1, sam := .short16, seq := 7, dpanV := true,
            dpan := 0x1234, daddrV := true, daddr := 0x0102030405060708, spanV := true, span := 0xbeef, saddrV := true,
            saddr := 0xabcd, hlen := 17 }, 17) := by decide -- V59
theorem test_header_step_short : errorOf (step (held [0x41, 0x88, 1, 0xca, 0xde, 0xff, 0xff, 0x34, 0x12, 0])) =
    (some .frameTooShort, 10) := by decide -- V133
theorem test_finish : (match step { atRegion Params.reference false [] with fb := Memory.load (octets [0, 0, 1, 0xaa, 0xbb]) } with
      | .next t => (t.phase, t.fcs0, t.fcs1)
      | _ => (.idle, 0, 0)) = (Phase.done, 0xaa#8, 0xbb#8) := by decide -- V136
theorem test_push : (match step { State.reset with hostTurns := [.push 0x41 false] } with
      | .next t => (t.phase, t.flen, t.fb.read 0)
      | _ => (.idle, 0, 0)) = (Phase.recv, 1, 0x41#8) := by decide
theorem test_ack_keeps_cfg : (match step { State.reset with hostTurns := [.ack], phase := .done, cfgT23 := true, flen := 9 } with
      | .next t => (t.phase, t.flen, t.cfgT23)
      | _ => (.fault, 0, false)) = (Phase.idle, 0, true) := by decide
theorem test_fetch_word : queued (step (State.reset.withFetchWord 8 0x13)) =
    ([⟨.joinConfirmation, 0x13, 0, 5, .joinConfirmation ⟨0, 0, 0⟩⟩], 5) := by decide
theorem test_memory_wf_reset : State.reset.fb.wf := by decide
theorem test_primitives : (oct2bits (octets [0x12, 0x34, 0x56]) 3 .little).toOption = some 0x563412 ∧
    (sliceBits 0x8841#16 0 2 16 false).toOption = some 4 ∧
    (sliceOct (octets [0x0a, 0x0b, 0x0c, 0x0d]) 1 2 .little).toOption = some (octets [0x0c, 0x0b]) ∧
    (numdecSigned (octets [0xfe, 0xff]) 2 .little).toOption = some (-2) ∧
    floatView 0x42480000 = .finite false 0xc80000 (-18) := by decide -- V3, V15, V21, V28, S1

/-! ## Witnesses: for each statement with hypotheses, concrete values that meet them, at the ends of the ranges its clauses name -/

/-- The Beacon of V60 as a region. -/
def beaconRegion : List Nat := [0x10, 0x01, 0x03, 0x80, 0x02, 0x01, 0x05, 0x0f, 0, 0, 0, 0x01, 0x80, 0, 1, 2, 3, 4, 5, 6, 7, 8, 9]

/-- A message of `n` octets: a tag and zeros. -/
def message (tag n : Nat) : List Nat := tag :: List.replicate (n - 1) 0

/-- Reset, with the host's turns `ts`. -/
def turns (ts : List HostTurn) : State := { State.reset with hostTurns := ts }

theorem witness_HostAndEngineTakeTurns : State.reset.hostTurns = [] ∧ (turns [.pass, .ack]).hostTurns = .pass :: [.ack] ∧
    (turns [.ack]).hostTurns = .ack :: [] ∧ HostTurn.ack ≠ .pass ∧ step State.reset = .next State.reset :=
  ⟨rfl, rfl, rfl, by decide, rfl⟩
theorem witness_StepRunsTheDecodedRows :
    (let e := atRegion Params.reference true (message 0x23 3)
     (e.EngineMovesFrom e ∧ ({ e with hostTurns := [.pass] } : State).EngineMovesFrom e) ∧ e.phase = .disp ∧
       e.hdr.hlen + e.rlen ≤ e.flen ∧ e.cur < e.rlen ∧
       decodeRegion e.params e.cfgT23 (e.bufferAt 0 e.rem) = .instr (.service ⟨0, 0, []⟩)) ∧
    (let e := held [0, 0, 1, 0xaa, 0xbb]
     (e.EngineMovesFrom e ∧ ({ e with hostTurns := [.pass] } : State).EngineMovesFrom e) ∧ e.phase = .hdr ∧ 2 ≤ e.flen ∧
       headerLen e.frameControlWord + 2 ≤ e.flen) ∧
    (exec .ftData (held [1, 0]) = .next ((held [1, 0]).setHeader fun h => { h with ft := .data }) ∧
      ((held [1, 0]).setHeader fun h => { h with ft := .data }).phase = .hdr) :=
  ⟨⟨⟨.inl ⟨rfl, rfl⟩, .inr ⟨[], rfl, rfl⟩⟩, by decide⟩, ⟨⟨.inl ⟨rfl, rfl⟩, .inr ⟨[], rfl, rfl⟩⟩, by decide⟩, rfl, rfl⟩
theorem witness_DecodeOfEncodedMessage : Params.reference.tagmap.wf ∧
    WellFormed Params.reference (.almanac ⟨0, 0, 0, 0, 0, 0, 0, 0, 0⟩) = true ∧ (Instr.almanac ⟨0, 0, 0, 0, 0, 0, 0, 0, 0⟩).kind? = some .almanac ∧
    WellFormed Params.reference (.service ⟨0, 0x02, [0, 0]⟩) = true ∧ (Instr.service ⟨0, 0x02, [0, 0]⟩).kind? = some .service ∧
    ((Kind.almanac = .almanac → false = false) ∧ (Kind.almanac = .service → false = true)) ∧
    ((Kind.service = .almanac → true = false) ∧ (Kind.service = .service → true = true)) := by decide
theorem witness_EncodeOfDecodedMessage :
    decodeRegion Params.reference true (octets [0x23, 0, 0]) = .instr (.service ⟨0, 0, []⟩) ∧
    (Instr.service ⟨0, 0, []⟩).kind? = some .service ∧
    (msgLen Params.reference .service 3 ((octets [0x23, 0, 0]).getD (lengthOffset .service) 0)).toOption = some 3 := by decide
theorem witness_DecodeOfEncodedFrameControlRow : WellFormed Params.reference (.ftReserved 4) = true ∧
    (Instr.ftReserved 4).kind? = none ∧ WellFormed Params.reference .samLong64 = true ∧ Instr.samLong64.kind? = none := by decide
theorem witness_MatchSelectsTheCatalogEntry : tagmapRef.wf ∧ (Kind.iotDataUplink ≠ .almanac ∧ Kind.iotDataUplink ≠ .service ∧
    0x6a#8 = tagOf tagmapRef .iotDataUplink) ∧ ∀ k, 0x24#8 ≠ tagOf tagmapRef k :=
  ⟨by decide, by decide, fun k => by cases k <;> decide⟩
theorem witness_OctetsToBitsReassembles : (octets [0x41]).length < 2 ∧ 2 ≤ (octets [0x41, 0x88]).length := by decide
theorem witness_SliceBitsSelectsTheRange : 15 ≠ 16 ∧ (16 = 16 ∧ (16 ≤ 16 ∨ 16 < 15)) ∧ (16 = 16 ∧ (16 ≤ 2 ∨ 2 < 3)) ∧
    (16 = 16 ∧ 15 < 16 ∧ 0 ≤ 15) := by decide
theorem witness_ByteReversalIsAppliedOnce : (octets [0x0a, 0x0b]).length < 3 + 0 ∧ 2 + 0 ≤ (octets [0x0a, 0x0b]).length ∧
    (sliceOct (octets [0x34, 0x12]) 0 2 .little).toOption = some (octets [0x12, 0x34]) := by decide
theorem witness_UnsignedNumericDecode : (octets [0x34]).length < 2 ∧ 2 ≤ (octets [0x34, 0x12]).length := by decide
theorem witness_SignedReadingIsTwosComplement : 0 < 8 ∧ (-(2 ^ (8 - 1)) ≤ (-128 : Int) ∧ (-128 : Int) < 2 ^ (8 - 1)) ∧
    (-(2 ^ (8 - 1)) ≤ (127 : Int) ∧ (127 : Int) < 2 ^ (8 - 1)) ∧ 8 ≤ 8 ∧ signedOf 0xff#8 = signedOf 0xff#8 := by decide
theorem witness_FlagViewReadsOctetBits : 1 + 2 ≤ (octets [0x10, 0x03, 0x80]).length ∧ 15 < 8 * 2 := by decide
theorem witness_FieldReaderIsSliceThenNumber : 1 + 4 ≤ (octets [0x22, 0, 0, 0x48, 0x42]).length ∧ 4 = 4 := by decide
theorem witness_TagAddressView : 0 < (octets [1, 0, 2]).length / 2 ∧ 1 < (octets [1, 0, 2, 0]).length / 2 ∧ BnbScale.one.toNat * 3 % 2 = 1 := by decide
theorem witness_FrameControlRowWritesFields : (held [0x41, 0x88]).phase = .hdr := by decide
theorem witness_FrameTypeAndFlagRowsWriteOneRegister : (held [0x41, 0x88]).phase = .hdr := by decide
theorem witness_DestinationRowsWalk : ((walking false 7).phase = .hdr ∧ (walking false 7).hc + 4 ≤ (walking false 7).flen) ∧
    ((walking false 13).phase = .hdr ∧ (walking false 13).hc + 10 ≤ (walking false 13).flen) := by decide
theorem witness_SourceRowsWalk :
    (let s := walking true 5; s.phase = .hdr ∧ s.hdr.pic = true ∧ s.hc + 2 ≤ s.flen) ∧
    (let s := walking false 7; s.phase = .hdr ∧ s.hdr.pic = false ∧ s.hc + 4 ≤ s.flen) ∧
    (let s := walking true 11; s.phase = .hdr ∧ s.hdr.pic = true ∧ s.hc + 8 ≤ s.flen) ∧
    (let s := walking false 13; s.phase = .hdr ∧ s.hdr.pic = false ∧ s.hc + 10 ≤ s.flen) := by decide
theorem witness_AddressRowBeyondTheFrame :
    (let s := walking false 6; s.phase = .hdr ∧ s.flen < s.hc + 4 ∧ s.flen < s.hc + (if s.hdr.pic then 2 else 4)) ∧
    (let s := walking false 12; s.phase = .hdr ∧ s.flen < s.hc + 10 ∧ s.flen < s.hc + (if s.hdr.pic then 8 else 10)) ∧
    (let s := walking true 4; s.phase = .hdr ∧ s.flen < s.hc + (if s.hdr.pic then 2 else 4)) ∧
    (let s := walking true 10; s.phase = .hdr ∧ s.flen < s.hc + (if s.hdr.pic then 8 else 10)) := by decide
theorem witness_HeaderStepWritesTheHeader :
    (let s := held [0x41, 0x88, 1, 0xca, 0xde, 0xff, 0xff, 0x34, 0x12, 0, 0]
     s.EngineNext ∧ s.phase = .hdr ∧ 2 ≤ s.flen ∧ headerLen s.frameControlWord + 2 ≤ s.flen) := by decide -- V134
theorem witness_ShortFrameTakesFrameTooShort :
    (let s := held [0x41]; s.EngineNext ∧ s.phase = .hdr ∧ s.flen < 2) ∧
    (let s := held [0, 0, 1, 0xaa]; s.EngineNext ∧ s.phase = .hdr ∧ s.flen < headerLen s.frameControlWord + 2) := by
  decide -- V130, V135
theorem witness_OnlyModesAndCompressionSteer :
    BitVec.ofNat 16 (LE (octets [0x41, 0x88])) &&& 0xcc40#16 = BitVec.ofNat 16 (LE (octets [0xfe, 0xbb])) &&& 0xcc40#16 ∧
    (decodeFrame Params.reference false (octets [0x41, 0x88, 1, 0xca, 0xde])).toOption = none ∧
    (decodeFrame Params.reference false (octets [0x41, 0x88, 1, 0xca, 0xde, 0xff, 0xff, 0x34, 0x12, 0, 0])).toOption.isSome := by
  decide
theorem witness_LengthTestsInOrder :
    ((Kind.beacon, 23) ∈ [(Kind.beacon, 23)] ∧ 22 < 23 ∧ 23 ≤ 23) ∧
    (2 < 3 ∧ 3 ≤ 3 ∧ 128 ≤ (0x80#8).toNat ∧ (0x7f#8).toNat < 128 ∧ 129 < 3 + 1 * (0x7f#8).toNat ∧
      3 + 1 * (0x7f#8).toNat ≤ 130) := by decide -- V107, V115, V120
theorem witness_DispatchStepByCase :
    (let s := atRegion Params.reference false [0x90]
     s.Dispatching ∧ s.cur < s.rlen ∧ matchTag s.params.tagmap s.cfgT23 (s.octetAt 0) = none) ∧
    (let s := atRegion Params.reference false (message 0x10 22)
     s.Dispatching ∧ s.cur < s.rlen ∧ matchTag s.params.tagmap s.cfgT23 (s.octetAt 0) = some .beacon ∧
       msgLen s.params .beacon s.rem (s.octetAt (lengthOffset .beacon)) = .error .truncatedMessage) ∧
    (let s := atRegion Params.reference false (message 0x10 23)
     s.Dispatching ∧ s.cur < s.rlen ∧ matchTag s.params.tagmap s.cfgT23 (s.octetAt 0) = some .beacon ∧
       msgLen s.params .beacon s.rem (s.octetAt (lengthOffset .beacon)) = .ok 23) :=
  ⟨by decide, ⟨by decide, by decide, by decide, rfl⟩, ⟨by decide, by decide, by decide, rfl⟩⟩ -- V106, V107
theorem witness_FinishStoresTheFcs :
    (let s := atRegion Params.reference false []; s.EngineNext ∧ s.phase = .disp ∧ s.cur = s.rlen ∧ 2 ≤ s.flen) := by decide
theorem witness_RegionWithoutTagsYieldsNothing :
    (let s := atRegion Params.reference false [1, 2, 3, 4]
     s.Dispatching ∧ s.cur = 0 ∧ s.msgq = [] ∧ (∀ j, j < s.rlen → matchTag s.params.tagmap s.cfgT23 (s.fb.read (s.hdr.hlen + j)) = none) ∧
       4 ≤ s.rlen) ∧
    ∀ o ∈ octets [1, 2, 3, 4], matchTag tagmapRef false o = none := by decide -- V92

/-- What the fixed message statements assume, at the last region that holds the message (V107 to V114). -/
abbrev FixedFits (s : State) (tag : Octet) (n : Nat) : Prop :=
  s.Dispatching ∧ s.params.tagmap.wf ∧ s.octetAt 0 = tag ∧ s.cur + n ≤ s.rlen

theorem witness_BeaconStepDeliversItsRecord : FixedFits (atRegion Params.reference false beaconRegion) 0x10 23 := by decide
theorem witness_JoinRequestStepDeliversItsRecord :
    FixedFits (atRegion Params.reference false (message 0x12 18)) tagmapRef.joinRequest 18 := by decide
theorem witness_JoinConfirmationStepDeliversItsRecord :
    FixedFits (atRegion Params.reference false (message 0x13 5)) tagmapRef.joinConfirmation 5 := by decide
theorem witness_AlmanacStepDeliversItsRecord :
    FixedFits (atRegion Params.reference false (message 0x23 47)) 0x23 47 ∧
    (let s := atRegion Params.reference false (message 0x23 46)
     FixedFits s 0x23 1 ∧ s.cfgT23 = false ∧ s.cur < s.rlen ∧ s.rlen < s.cur + 47) ∧
    (let s := atRegion Params.reference true (message 0x23 3); FixedFits s 0x23 3 ∧ s.cfgT23 = true) := by decide
theorem witness_FwUpdateRequestStepDeliversItsRecord :
    FixedFits (atRegion Params.reference false (message 0x18 24)) tagmapRef.fwUpdateRequest 24 := by decide
theorem witness_PositionStepDeliversItsRecord :
    FixedFits (atRegion Params.reference false (message 0x22 17)) tagmapRef.position 17 := by decide
theorem witness_GroupPollStepDeliversItsRecord :
    FixedFits (atRegion Params.reference false (message 0x30 29)) tagmapRef.groupPoll 29 := by decide
theorem witness_ResponseStepDeliversItsRecord :
    FixedFits (atRegion Params.reference false (message 0x31 22)) tagmapRef.response 22 := by decide
theorem witness_ServiceStepDeliversItsRecord :
    (let s := atRegion Params.reference true [0x23, 0, 0]
     FixedFits s 0x23 3 ∧ s.cfgT23 = true ∧ (s.octetAt 2).toNat < 128 ∧ s.cur + (3 + (s.octetAt 2).toNat) ≤ s.rlen) ∧
    (let s := atRegion Params.reference true [0x23, 5, 0x80, 0]
     FixedFits s 0x23 3 ∧ s.cfgT23 = true ∧ 128 ≤ (s.octetAt 2).toNat) ∧
    (let s := atRegion Params.reference false [0x23, 0, 0]; FixedFits s 0x23 3 ∧ s.cfgT23 = false) := by decide -- V81, V98
theorem witness_FwUpdateDataStepDeliversItsRecord :
    (let s := atRegion Params.reference false (message 0x21 8)
     FixedFits s tagmapRef.fwUpdateData 8 ∧ (s.octetAt 7).toNat < 128 ∧ s.cur + (8 + (s.octetAt 7).toNat) ≤ s.rlen) := by decide
theorem witness_BridgeNodeBeaconStepDeliversItsRecord :
    (let s := atRegion scaleTwo false [0x63, 0x0f, 0, 0, 0, 0x34, 0x12, 1, 2, 3, 1, 0, 2, 0, 3, 0]
     FixedFits s tagmapRef.bridgeNodeBeacon 16 ∧ (s.octetAt 9).toNat < 128 ∧
       s.cur + (10 + s.params.bnbScale.toNat * (s.octetAt 9).toNat) ≤ s.rlen) := by decide -- V86
theorem witness_IotDataDownlinkStepDeliversItsRecord :
    (let s := atRegion Params.reference false (message 0x65 7)
     FixedFits s tagmapRef.iotDataDownlink 7 ∧ (s.octetAt 6).toNat < 128 ∧ s.cur + (7 + (s.octetAt 6).toNat) ≤ s.rlen) := by decide
theorem witness_IotDataUplinkStepDeliversItsRecord :
    (let s := atRegion Params.reference false (message 0x6a 7)
     FixedFits s tagmapRef.iotDataUplink 7 ∧ (s.octetAt 6).toNat < 128 ∧ s.cur + (7 + (s.octetAt 6).toNat) ≤ s.rlen) ∧
    (let s := atRegion Params.reference false [0x6a, 0x34, 0x12, 0, 0xe8, 3, 0xff]
     FixedFits s tagmapRef.iotDataUplink 7 ∧ 128 ≤ (s.octetAt 6).toNat) ∧
    (let s := atRegion Params.reference false [0x6a, 0x34, 0x12, 0, 0xe8, 3, 0x7f]
     FixedFits s tagmapRef.iotDataUplink 7 ∧ (s.octetAt 6).toNat < 128 ∧ s.rlen < s.cur + (7 + (s.octetAt 6).toNat)) := by
  decide -- V119, V89b, V89c
theorem witness_FixedMessageRowsComplete :
    (let s := atRegion Params.reference false (message 0x23 47)
     s.phase = .disp ∧ s.cur + 23 ≤ s.rlen ∧ s.cur + 18 ≤ s.rlen ∧ s.cur + 5 ≤ s.rlen ∧ s.cur + 47 ≤ s.rlen ∧
       s.cur + 24 ≤ s.rlen ∧ s.cur + 17 ≤ s.rlen ∧ s.cur + 29 ≤ s.rlen ∧ s.cur + 22 ≤ s.rlen) := by decide
theorem witness_VariableMessageRowsComplete :
    (let s := atRegion scaleTwo true (message 0x63 12)
     s.phase = .disp ∧ (1#8).toNat < 128 ∧ s.cur + (3 + (1#8).toNat) ≤ s.rlen ∧ s.cur + (8 + (1#8).toNat) ≤ s.rlen ∧
       s.cur + (10 + s.params.bnbScale.toNat * (1#8).toNat) ≤ s.rlen ∧ s.cur + (7 + (1#8).toNat) ≤ s.rlen) := by decide
theorem witness_RowsLeaveTheRestUnchanged :
    (∃ t, exec .flagSec (held [8, 0]) = .next t ∧ t.phase ≠ .fault ∧ Instr.flagSec.kind? = none) ∧
    (∃ t, exec (.service ⟨0, 0, []⟩) (atRegion Params.reference true [0x23, 0, 0]) = .next t ∧ t.phase ≠ .fault ∧
      (Instr.service ⟨0, 0, []⟩).kind? ≠ none) :=
  ⟨⟨_, rfl, by decide, by decide⟩, ⟨_, rfl, by decide, by decide⟩⟩
theorem witness_RowsOutsideTheirStepStop :
    (Instr.flagSec.kind? = none ∧ State.reset.phase ≠ .hdr) ∧
    ((Instr.service ⟨0, 0, []⟩).kind? ≠ none ∧ ¬ (atRegion Params.reference true []).DispatchEnabled) := by decide
theorem witness_FaultEntryLeavesOnlyTheError : (held [0x41]).EngineNext := by decide
theorem witness_PushStoresOneOctet :
    (let s := turns [.push 0x41 true]; s.hostTurns = .push 0x41 true :: [] ∧ s.fb.wf ∧ s.inReady = true) ∧
    (let s := { turns [.push 0x41 true] with flen := 127, phase := .recv }
     s.hostTurns = .push 0x41 true :: [] ∧ s.fb.wf ∧ s.inReady = false) := by decide
theorem witness_ConfigurationWrittenInIdleOnly :
    (let s := turns [.cfgwr true]; s.hostTurns = .cfgwr true :: [] ∧ s.phase = .idle) ∧
    (let s := { turns [.cfgwr true] with phase := .recv }; s.hostTurns = .cfgwr true :: [] ∧ s.phase ≠ .idle) := by decide
theorem witness_AckAndResetClear :
    (let s := { turns [.ack] with phase := .fault }; s.hostTurns = .ack :: [] ∧ (s.phase = .done ∨ s.phase = .fault)) ∧
    (let s := turns [.ack]; s.hostTurns = .ack :: [] ∧ s.phase ≠ .done ∧ s.phase ≠ .fault) ∧
    (turns [.reset]).hostTurns = .reset :: [] := by decide
theorem witness_HostReadsChangeNothing : (turns [.read .cfg]).hostTurns = .read .cfg :: [] ∧
    (let s : State := { State.reset with
      phase := .done, hdr := { ft := .reserved, dam := .long64, sam := .short16 },
      msgq := [⟨.service, 0x23, 0, 3, .service ⟨0, 0, []⟩⟩] }
     s.phase = .done ∧ s.hdr.ft = .reserved ∧ s.hdr.dam = .long64 ∧ s.hdr.sam = .short16 ∧ 0 < s.msgq.length ∧ s.mcnt ≤ 1) ∧
    (State.reset.faultEntry .frameTooShort 1).errKind = some .frameTooShort := by decide

/-- The 5-octet frame of V136 in the header phase is a sound state. -/
theorem held_inv : (held [0, 0, 1, 0xaa, 0xbb]).Inv :=
  ⟨by decide, by decide, ⟨by decide, rfl, rfl⟩⟩

/-- A region of one filler octet, one octet to go, is a sound state. -/
theorem atRegion_inv : (atRegion Params.reference false [0x90]).Inv :=
  ⟨by decide, by decide, ⟨by decide, Nat.zero_le _, by decide, by decide, rfl, rfl, rfl⟩⟩

/-- The same region with nothing left. -/
theorem atEnd_inv : ({ atRegion Params.reference false [0x90] with cur := 1 } : State).Inv :=
  ⟨by decide, by decide, ⟨by decide, Nat.zero_le _, by decide, by decide, rfl, rfl, rfl⟩⟩

/-- A decoded frame with an empty region (V136). -/
def decoded : State :=
  { atRegion Params.reference false [] with fb := Memory.load (octets [0, 0, 1, 0xaa, 0xbb]), fcs0 := 0xaa, fcs1 := 0xbb, phase := .done }

theorem decoded_inv : decoded.Inv :=
  ⟨by decide, by decide, ⟨by decide, Nat.zero_le _, by decide, by decide, rfl, rfl, rfl, rfl⟩⟩

/-- Reset with one host turn waiting is a sound state. -/
theorem turns_inv : (turns [.push 1 true]).Inv := ⟨by decide, by decide, ⟨rfl, rfl, rfl⟩⟩

theorem witness_PhaseTransitionsAsTabled :
    (State.reset.Inv ∧ State.reset.EngineMovesFrom State.reset ∧ ∃ t, step State.reset = .next t) ∧
    ((turns [.pass]).Inv ∧ (turns [.pass]).EngineMovesFrom State.reset ∧ ∃ t, step (turns [.pass]) = .next t) ∧
    ((held [0, 0, 1, 0xaa, 0xbb]).Inv ∧ ∃ t, step (held [0, 0, 1, 0xaa, 0xbb]) = .next t) ∧
    ((atRegion Params.reference false [0x90]).Inv ∧ ∃ t, step (atRegion Params.reference false [0x90]) = .next t) ∧
    (({ atRegion Params.reference false [0x90] with cur := 1 } : State).Inv ∧
      ∃ t, step { atRegion Params.reference false [0x90] with cur := 1 } = .next t) ∧
    ((turns [.push 1 true]).Inv ∧ HostTurn.push 1 true ≠ .pass ∧
      ∃ t, step (turns [.push 1 true]) = .next t ∧ t.phase ≠ (turns [.push 1 true]).phase) :=
  ⟨⟨⟨by decide, by decide, ⟨rfl, rfl, rfl⟩⟩, .inl ⟨rfl, rfl⟩, _, rfl⟩,
    ⟨⟨by decide, by decide, ⟨rfl, rfl, rfl⟩⟩, .inr ⟨[], rfl, rfl⟩, _, rfl⟩, ⟨held_inv, _, rfl⟩, ⟨atRegion_inv, _, rfl⟩, ⟨atEnd_inv, _, rfl⟩,
    ⟨turns_inv, by decide, _, rfl, by decide⟩⟩
theorem witness_InvariantKeptByStep :
    ((held [0, 0, 1, 0xaa, 0xbb]).Inv ∧ ∃ t, step (held [0, 0, 1, 0xaa, 0xbb]) = .next t) ∧
    ((turns [.push 1 true]).Inv ∧ ∃ t, step (turns [.push 1 true]) = .next t) :=
  ⟨⟨held_inv, _, rfl⟩, ⟨turns_inv, _, rfl⟩⟩
theorem witness_DoneStateDividesTheFrame : decoded.Inv ∧ decoded.phase = .done := ⟨decoded_inv, rfl⟩
theorem witness_EngineAgreesWithDecodeFrame :
    (let s := held [0, 0, 1, 0xaa, 0xbb]
     s.EngineNext ∧ s.phase = .hdr ∧ ∃ f, decodeFrame s.params s.cfgT23 s.frameOctets = .ok f) ∧
    (let s := held [0, 0, 1, 0, 0, 0x10, 0xaa, 0xbb]
     s.EngineNext ∧ s.phase = .hdr ∧ ∃ e, decodeFrame s.params s.cfgT23 s.frameOctets = .error e) :=
  ⟨⟨rfl, rfl, _, rfl⟩, ⟨rfl, rfl, _, rfl⟩⟩ -- V136, V139
theorem witness_FcsIsStoredNotChecked :
    (∃ f, decodeFrame Params.reference false (octets [0, 0, 1] ++ octets [0xaa, 0xbb]) = .ok f) ∧
    (∃ e, decodeFrame Params.reference false (octets [0, 0] ++ octets [0xaa, 0xbb]) = .error e) := ⟨⟨_, rfl⟩, ⟨_, rfl⟩⟩ -- V136, V135

end Sys2Proof.Tests
end

section
/-! PROOFS. The signed reading of a word (00_scope.md R16): it is the library's two's complement reading, from which its range,
the bijection and both extensions follow. -/

namespace Sys2Proof.Machine

/-- The model tests the word against half the range, the library its double against the whole; for a positive width these
are the same test (R16). -/
theorem signedOf_eq_toInt {n : Nat} (hn : 0 < n) (W : BitVec n) : signedOf W = W.toInt := by
  have half : 2 ^ n = 2 * 2 ^ (n - 1) := (mul_pow_sub_one hn.ne' 2).symm
  have sameTest : W.toNat < 2 ^ (n - 1) ↔ 2 * W.toNat < 2 ^ n := by omega
  simp only [signedOf, BitVec.toInt_eq_toNat_cond, sameTest, Nat.cast_pow, Nat.cast_ofNat]

theorem signedOf_injective {n : Nat} (hn : 0 < n) : Function.Injective (signedOf (n := n)) := by
  intro W V h
  rw [signedOf_eq_toInt hn, signedOf_eq_toInt hn] at h
  exact BitVec.eq_of_toInt_eq h

/-- An integer in range is what its own word reads as (R16). -/
theorem signedOf_ofInt {n : Nat} (hn : 0 < n) {z : Int} (hlo : -(2 ^ (n - 1)) ≤ z) (hhi : z < 2 ^ (n - 1)) :
    signedOf (BitVec.ofInt n z) = z := by
  rw [signedOf_eq_toInt hn, BitVec.toInt_ofInt_eq_self hn hlo hhi]

/-- A number in the range of the narrow word is in the range of the wide one, so `sext` keeps it (R16). -/
theorem signedOf_signExtend {n m : Nat} (hn : 0 < n) (hnm : n ≤ m) (W : BitVec n) :
    signedOf (signExtend m W) = signedOf W := by
  have wider : (2 : Int) ^ (n - 1) ≤ 2 ^ (m - 1) := pow_le_pow_right₀ (by norm_num) (by omega)
  have hlo : -(2 ^ (n - 1)) ≤ signedOf W := signedOf_eq_toInt hn W ▸ W.le_toInt
  have hhi : signedOf W < 2 ^ (n - 1) := signedOf_eq_toInt hn W ▸ W.toInt_lt
  exact signedOf_ofInt (by omega) (by omega) (by omega)

theorem zeroExtend_toNat {n m : Nat} (hnm : n ≤ m) (W : BitVec n) : (zeroExtend m W).toNat = W.toNat := by
  have fits : W.toNat < 2 ^ m := W.isLt.trans_le (Nat.pow_le_pow_right (by norm_num) hnm)
  rw [zeroExtend, BitVec.toNat_ofNat, Nat.mod_eq_of_lt fits]

/-- Settles O13: the signed reading is the library's two's complement, whose range and injectivity carry over; the word of
an integer in range reads back as it. -/
theorem signedReadingIsTwosComplement : Obligations.SignedReadingIsTwosComplement := by
  unfold Obligations.SignedReadingIsTwosComplement
  intro n hn
  refine ⟨fun W => ?range, fun _ _ h => signedOf_injective hn h,
    fun z hlo hhi => ⟨BitVec.ofInt n z, signedOf_ofInt hn hlo hhi⟩,
    fun m W hnm => ⟨signedOf_signExtend hn hnm W, zeroExtend_toNat hnm W⟩⟩
  case range =>
    rw [signedOf_eq_toInt hn]
    exact ⟨rfl, W.le_toInt, W.toInt_lt⟩

end Sys2Proof.Machine
end

section
/-! PROOFS. The address steps of the header walk beyond FLEN (00_scope.md R18, 20_memory.md R81): which read raises, and where the
error is recorded (assumption 11). -/

namespace Sys2Proof.Machine

/-- Within the header step a row's action is what the row does (R308). -/
theorem inHeaderStep_of_hdr {s : State} (hp : s.phase = .hdr) (act : Result) : inHeaderStep s act = act := if_pos hp

theorem faultEntry_eq_afterFault (s : State) (e : DecodeError) (p : Nat) : s.faultEntry e p = s.afterFault e p := rfl

/-- A destination that passes FLEN faults at the read that passes it: the PAN identifier's at the cursor, the address's two
octets on (R184, R185, R18). -/
theorem destinationPresent_beyond {s : State} (mode : AddrMode) (n : Nat) (h : s.flen < s.hc + 2 + n) :
    ∃ q, s.hc ≤ q ∧ q ≤ s.hc + 2 ∧ destinationPresent s mode n = .next (s.afterFault .outOfRange q) := by
  rcases memRead_cases s s.hc 2 with ⟨_, hpan⟩ | ⟨_, hpan⟩
  · have haddr := memRead_error s (s.hc + 2) n h
    exact ⟨s.hc + 2, by omega, le_rfl, by simp only [destinationPresent, hpan, haddr, faultEntry_eq_afterFault]⟩
  · exact ⟨s.hc, le_rfl, by omega, by simp only [destinationPresent, hpan, faultEntry_eq_afterFault]⟩

/-- A source address that passes FLEN faults where it is read (R187, R18). -/
theorem sourceAddress_beyond {s : State} {n pos : Nat} (mode : AddrMode) (v : Bool) (span : BitVec 16)
    (h : s.flen < pos + n) : sourceAddress s mode n pos v span = .next (s.afterFault .outOfRange pos) := by
  simp only [sourceAddress, memRead_error s pos n h, faultEntry_eq_afterFault]

/-- A source that passes FLEN faults at the read that passes it. Under PIC that is the address's, at the cursor; without,
the PAN identifier's at the cursor or the address's two octets on (R186, R187, R18). -/
theorem sourcePresent_beyond {s : State} (mode : AddrMode) (n : Nat)
    (h : s.flen < s.hc + if s.hdr.pic then n else 2 + n) :
    ∃ q, s.hc ≤ q ∧ q ≤ s.hc + 2 ∧ sourcePresent s mode n = .next (s.afterFault .outOfRange q) := by
  cases hpic : s.hdr.pic with
  | true =>
    rw [hpic, if_pos rfl] at h
    exact ⟨s.hc, le_rfl, by omega, by rw [sourcePresent, hpic, if_pos rfl, sourceAddress_beyond mode _ _ h]⟩
  | false =>
    rw [hpic, if_neg Bool.false_ne_true, ← Nat.add_assoc] at h
    rw [sourcePresent, hpic, if_neg Bool.false_ne_true]
    rcases memRead_cases s s.hc 2 with ⟨_, hpan⟩ | ⟨_, hpan⟩
    · exact ⟨s.hc + 2, by omega, le_rfl, by simp only [hpan, sourceAddress_beyond mode _ _ h]⟩
    · exact ⟨s.hc, le_rfl, by omega, by simp only [hpan, faultEntry_eq_afterFault]⟩

/-- Settles O22: in the header step each address row is its destination or source step, which faults at the read that
passes FLEN. -/
theorem addressRowBeyondTheFrame : Obligations.AddressRowBeyondTheFrame := by
  unfold Obligations.AddressRowBeyondTheFrame
  intro s hp
  simp only [exec, execDamShort16, execDamLong64, execSamShort16, execSamLong64, inHeaderStep_of_hdr hp]
  exact ⟨destinationPresent_beyond .short16 2, destinationPresent_beyond .long64 8,
    sourcePresent_beyond .short16 2, sourcePresent_beyond .long64 8⟩

end Sys2Proof.Machine
end

section
/-! PROOFS. What a host reads (10_state.md R51, R55; assumption 17) and the state after reset (70_reset_and_hazards.md R360).
The tables of the statements pair a register with its value and an enumeration's value with its code; a table is right when
reading its first column gives its second. -/

namespace Sys2Proof.Machine

/-! ## A read as a turn -/

/-- The host's first listed operation is the turn, whatever the engine's phase (R300, assumption 3). -/
theorem step_hostTurn {s : State} {t : HostTurn} {ts : List HostTurn} (h : s.hostTurns = t :: ts) (ht : t ≠ .pass) :
    step s = .next (hostTurn t { s with hostTurns := ts }) := by
  unfold step turn
  rw [h]
  cases t with
  | pass => exact absurd rfl ht
  | push | cfgwr | ack | reset | read => rfl

/-! ## Registers and codes in a table -/

/-- Two columns that agree under `f` and `g` agree at every row. -/
theorem forall_mem_table {α β γ : Type} {f : α → γ} {g : β → γ} {table : List (α × β)}
    (columns : table.map (fun row => f row.1) = table.map (fun row => g row.2)) :
    ∀ a b, (a, b) ∈ table → f a = g b :=
  fun a b hrow => List.map_inj_left.mp columns (a, b) hrow

/-- A register that reads an enumeration's code reads what the table of the codes lists for the value it holds. -/
theorem hostRead_of_codeTable {s : State} {r : HostReg} {α : Type} {code : α → Nat} {held : α} {table : List (α × Nat)}
    (hread : hostRead s r = some (.num (code held)))
    (columns : table.map (fun row => code row.1) = table.map (fun row => row.2)) :
    ∀ v n, (v, n) ∈ table → held = v → hostRead s r = some (.num n) := by
  intro v n hrow hheld
  have hcode : code v = n := forall_mem_table (g := id) columns v n hrow
  rw [hread, hheld, hcode]

/-! ## Bits -/

theorem boolToNat_eq_ite (b : Bool) : b.toNat = if b then 1 else 0 := by cases b <;> rfl

theorem bitRead_zero_or_one (b : Bool) :
    some (HostValue.num b.toNat) = some (.num 0) ∨ some (HostValue.num b.toNat) = some (.num 1) := by
  cases b with
  | false => exact .inl rfl
  | true => exact .inr rfl

theorem bitRead_eq_one_iff (b : Bool) : some (HostValue.num b.toNat) = some (.num 1) ↔ b = true := by
  cases b <;> simp

/-! ## The status flags (R51) -/

@[simp] theorem State.inReady_iff (s : State) :
    s.inReady = true ↔ (s.phase = .idle ∨ s.phase = .recv) ∧ s.flen < s.params.frameMax := by
  simp [State.inReady]

@[simp] theorem State.busy_iff (s : State) : s.busy = true ↔ s.phase = .hdr ∨ s.phase = .disp := by simp [State.busy]

@[simp] theorem State.doneF_iff (s : State) : s.doneF = true ↔ s.phase = .done := beq_iff_eq

@[simp] theorem State.errF_iff (s : State) : s.errF = true ↔ s.phase = .fault := beq_iff_eq

/-! ## The message queue (R49, R375) -/

theorem hostRead_msgq (s : State) (k : Nat) : hostRead s (.msgq k) = s.msgq[k]?.map .record := rfl

theorem hostRead_msgq_of_lt {s : State} {k : Nat} (h : k < s.msgq.length) :
    hostRead s (.msgq k) = some (.record s.msgq[k]) := by
  rw [hostRead_msgq, List.getElem?_eq_getElem h, Option.map_some]

theorem hostRead_msgq_eq_none_iff (s : State) (k : Nat) : hostRead s (.msgq k) = none ↔ s.mcnt ≤ k := by
  rw [hostRead_msgq, Option.map_eq_none_iff, List.getElem?_eq_none_iff, State.mcnt]

/-! ## The statements -/

/-- Settles O52: a read turn only leaves the list of turns, and each table's first column reads as its second. -/
theorem hostReadsChangeNothing : Obligations.HostReadsChangeNothing := by
  unfold Obligations.HostReadsChangeNothing
  refine ⟨fun s r ts h => step_hostTurn h (by simp), fun s =>
    ⟨?numbers, ?bits, ?frameType, ?addressModes, ?phase, ?errorKind,
      fun _ h => hostRead_msgq_of_lt h, hostRead_msgq_eq_none_iff s, ?flags⟩⟩
  case numbers => exact forall_mem_table (f := hostRead s) (g := fun n => some (.num n)) rfl
  case bits =>
    simp only [← boolToNat_eq_ite]
    exact forall_mem_table (f := hostRead s) (g := fun b : Bool => some (.num b.toNat)) rfl
  case frameType => exact hostRead_of_codeTable (code := frameTypeCode) rfl rfl
  case addressModes =>
    exact fun v n hrow => ⟨hostRead_of_codeTable (code := addrModeCode) rfl rfl v n hrow,
      hostRead_of_codeTable (code := addrModeCode) rfl rfl v n hrow⟩
  case phase => exact hostRead_of_codeTable (code := phaseCode) rfl rfl
  case errorKind => exact hostRead_of_codeTable (code := errCode) rfl rfl
  case flags =>
    simp only [List.forall_mem_cons]
    exact ⟨bitRead_zero_or_one s.inReady, bitRead_zero_or_one s.busy, bitRead_zero_or_one s.doneF,
      bitRead_zero_or_one s.errF, List.forall_mem_nil _⟩

/-- Settles O53: a flag reads 1 exactly when it is set, and each flag is its test of PHASE and FLEN. -/
theorem statusFlagsFollowThePhase : Obligations.StatusFlagsFollowThePhase := by
  unfold Obligations.StatusFlagsFollowThePhase
  exact fun s => ⟨(bitRead_eq_one_iff s.inReady).trans s.inReady_iff, (bitRead_eq_one_iff s.busy).trans s.busy_iff,
    (bitRead_eq_one_iff s.doneF).trans s.doneF_iff, (bitRead_eq_one_iff s.errF).trans s.errF_iff⟩

/-! ## The invariant at reset -/

/-- An empty buffer is canonical and lists nothing, and FLEN = 0 is within any capacity (assumption 5). -/
theorem resetWith_bufferOk (p : Params) : (State.resetWith p).BufferOk :=
  ⟨memory_wf_nil, List.forall_mem_nil _, Nat.zero_le _⟩

theorem resetWith_errKind_iff (p : Params) :
    (State.resetWith p).errKind = none ↔ (State.resetWith p).phase ≠ .fault :=
  iff_of_true rfl Phase.noConfusion

/-- The reset values are what IDLE promises: FLEN = 0, every result register clear, no error position. -/
theorem resetWith_phaseOk (p : Params) : (State.resetWith p).PhaseOk := ⟨rfl, rfl, rfl⟩

theorem resetWith_inv (p : Params) : (State.resetWith p).Inv :=
  ⟨resetWith_bufferOk p, resetWith_errKind_iff p, resetWith_phaseOk p⟩

/-- Settles O56: the invariant clause by clause for any parameters; `State.reset` is the reference parameters' case. -/
theorem invariantHoldsAtReset : Obligations.InvariantHoldsAtReset := by
  unfold Obligations.InvariantHoldsAtReset
  exact ⟨resetWith_inv, resetWith_inv Params.reference⟩

end Sys2Proof.Machine
end

section
/-! PROOFS. Decoding a message's encoding: the tag selects the kind (43_dispatcher.md R200 to R202), and each field reader, having
passed the pieces before its field, finds the piece the encoder wrote there (30_encoding.md R117, R262). -/

namespace Sys2Proof.Machine

/-! ## The tag selects the kind -/

/-- Which of the two kinds of tag 0x23 stands first in the catalog (R201). -/
def selectedKind (t23 : Bool) : Kind := if t23 then .service else .almanac

/-- Which of the two kinds of tag 0x23 stands second, where no octet reaches it (R201, R202). -/
def shadowedKind (t23 : Bool) : Kind := if t23 then .almanac else .service

/-- The catalog after the two kinds of tag 0x23 (R200). -/
def laterKinds : List Kind :=
  [.fwUpdateRequest, .fwUpdateData, .position, .groupPoll, .response, .bridgeNodeBeacon, .iotDataDownlink, .iotDataUplink]

/-- The catalog without the kind that no octet selects. -/
def selectableKinds (t23 : Bool) : List Kind :=
  [.beacon, .joinRequest, .joinConfirmation] ++ selectedKind t23 :: laterKinds

theorem catalog_eq (t23 : Bool) : catalog t23 =
    [.beacon, .joinRequest, .joinConfirmation] ++ selectedKind t23 :: shadowedKind t23 :: laterKinds := by
  cases t23 <;> rfl

theorem tagOf_selectedKind (m : TagMap) (t23 : Bool) : tagOf m (selectedKind t23) = 0x23#8 := by
  cases t23 <;> rfl

theorem tagOf_shadowedKind (m : TagMap) (t23 : Bool) : tagOf m (shadowedKind t23) = 0x23#8 := by
  cases t23 <;> rfl

/-- The shadowed kind never decides a match: an octet that equals its tag has stopped at the kind before it (R202). -/
theorem matchTag_eq_find_selectable (m : TagMap) (t23 : Bool) (t : Octet) :
    matchTag m t23 t = (selectableKinds t23).find? fun k => tagOf m k == t := by
  rw [matchTag, catalog_eq, selectableKinds, List.find?_append, List.find?_append]
  congr 1
  simp only [List.find?_cons, tagOf_selectedKind, tagOf_shadowedKind]
  cases 0x23#8 == t <;> rfl

/-- The selectable kinds' tags are 0x10, 0x23 and the ten that R7 assigns, in some order. -/
theorem selectable_tags_nodup {m : TagMap} (hm : m.wf) (t23 : Bool) : ((selectableKinds t23).map (tagOf m)).Nodup := by
  have order : ((selectableKinds t23).map (tagOf m)).Perm (0x10#8 :: 0x23#8 :: m.openTags) := by
    simp only [selectableKinds, List.map_append, List.map_cons, tagOf_selectedKind]
    exact List.perm_middle.cons _
  have assigned := order.trans ((hm.cons 0x23#8).cons 0x10#8)
  exact assigned.nodup_iff.mpr (by decide)

theorem mem_selectableKinds {t23 : Bool} {k : Kind} (ha : k = .almanac → t23 = false) (hs : k = .service → t23 = true) :
    k ∈ selectableKinds t23 := by
  cases k with
  | almanac => rw [ha rfl]; decide
  | service => rw [hs rfl]; decide
  | _ => simp [selectableKinds, laterKinds]

/-- A selectable kind's tag selects that kind (R202). -/
theorem matchTag_tagOf {m : TagMap} {t23 : Bool} {k : Kind} (hm : m.wf) (hk : k ∈ selectableKinds t23) :
    matchTag m t23 (tagOf m k) = some k := by
  rw [matchTag_eq_find_selectable]
  cases found : (selectableKinds t23).find? fun j => tagOf m j == tagOf m k with
  | none => exact absurd BEq.rfl (List.find?_eq_none.mp found k hk)
  | some j =>
    have same : tagOf m j = tagOf m k := beq_iff_eq.mp (List.find?_some found :)
    rw [List.inj_on_of_nodup_map (selectable_tags_nodup hm t23) (List.mem_of_find?_eq_some found) hk same]

theorem decodeRegion_of_tag {p : Params} {t23 : Bool} {k : Kind} (hm : p.tagmap.wf) (hk : k ∈ selectableKinds t23)
    (body : List Octet) :
    decodeRegion p t23 (tagOf p.tagmap k :: body) = .instr (decodeMessage p k (tagOf p.tagmap k :: body)) := by
  simp only [decodeRegion, matchTag_tagOf hm hk]

/-! ## Reading past the pieces of an encoding -/

@[simp] theorem fieldW_past_piece (n v : Nat) (r : List Octet) {off : Nat} (w : Nat) (h : n ≤ off) :
    fieldW (littleOctets n v ++ r) off w = fieldW r (off - n) w := by
  rw [fieldW_append _ _ _ _ (by rwa [littleOctets_length]), littleOctets_length]

@[simp] theorem trailingBuffer_cons (o : Octet) (r : List Octet) (h scale : Nat) (lf : Octet) :
    trailingBuffer (o :: r) (h + 1) scale lf = trailingBuffer r h scale lf := rfl

@[simp] theorem trailingBuffer_past_piece (n v : Nat) (r : List Octet) {h : Nat} (scale : Nat) (lf : Octet) (hn : n ≤ h) :
    trailingBuffer (littleOctets n v ++ r) h scale lf = trailingBuffer r (h - n) scale lf := by
  rw [trailingBuffer, fieldBuf_append _ _ _ _ (by rwa [littleOctets_length]), littleOctets_length, trailingBuffer]

theorem trailingPartOk_iff (scale : Nat) (lf : Octet) (buf : List Octet) :
    trailingPartOk scale lf buf = true ↔ lf.toNat < 128 ∧ buf.length = scale * lf.toNat := by
  simp [trailingPartOk, lengthFieldNonNegative, bufferFits]

/-- A buffer as long as its length field announces is what is read where it begins, whatever follows it (R118, R262). -/
theorem trailingBuffer_of_ok {scale : Nat} {lf : Octet} {buf : List Octet} (ok : trailingPartOk scale lf buf = true)
    (r : List Octet) : trailingBuffer (buf ++ r) 0 scale lf = buf := by
  obtain ⟨nonneg, fits⟩ := (trailingPartOk_iff scale lf buf).mp ok
  rw [trailingBuffer, signedOf_octet_nonneg lf nonneg, Int.toNat_natCast, fieldBuf_zero_append buf r _ fits]

/-! ## A message and its encoding -/

theorem encode_startsWith_tag {i : Instr} {k : Kind} (hk : i.kind? = some k) (p : Params) :
    ∃ body, encode p i = tagOf p.tagmap k :: body := by
  cases i with
  | beacon | joinRequest | joinConfirmation | almanac | fwUpdateRequest | position | groupPoll | response | service
  | fwUpdateData | bridgeNodeBeacon | iotDataDownlink | iotDataUplink =>
    obtain rfl := Option.some.inj hk
    exact ⟨_, rfl⟩
  | _ => cases hk

/-- Each reader of a kind passes the tag and the pieces before its field, then reads its own piece. The trailing buffer
needs the length field to be its length, which is what well-formedness says (R117, R262). -/
theorem decodeMessage_encode {p : Params} {i : Instr} {k : Kind} (hwf : WellFormed p i = true) (hk : i.kind? = some k)
    (suffix : List Octet) : decodeMessage p k (encode p i ++ suffix) = i := by
  cases i with
  | beacon | joinRequest | joinConfirmation | almanac | fwUpdateRequest | position | groupPoll | response =>
    obtain rfl := Option.some.inj hk
    simp [decodeMessage, encode, decodeBeacon, decodeJoinRequest, decodeJoinConfirmation, decodeAlmanac,
      decodeFwUpdateRequest, decodePosition, decodeGroupPoll, decodeResponse, fieldFlags, fieldF, fieldW_cons,
      fieldW_zero_append]
  | service | fwUpdateData | bridgeNodeBeacon | iotDataDownlink | iotDataUplink =>
    obtain rfl := Option.some.inj hk
    simp [decodeMessage, encode, decodeService, decodeFwUpdateData, decodeBridgeNodeBeacon, decodeIotData, fieldFlags,
      fieldW_cons, fieldW_zero_append, trailingBuffer_of_ok hwf]
  | _ => cases hk

/-- Settles O4: the encoding begins with the kind's tag, which selects the kind, and the kind's readers undo the encoder. -/
theorem decodeOfEncodedMessage : Obligations.DecodeOfEncodedMessage := by
  unfold Obligations.DecodeOfEncodedMessage
  intro p t23 i k suffix hm hwf hk ha hs
  obtain ⟨body, hbody⟩ := encode_startsWith_tag hk p
  have fields := decodeMessage_encode hwf hk suffix
  rw [hbody, List.cons_append] at fields ⊢
  rw [decodeRegion_of_tag hm (mem_selectableKinds ha hs), fields]

end Sys2Proof.Machine
end

section
/-! PROOFS. The rows that a frame-control word matches (30_encoding.md R102 to R104, R126): each row is named by the value of one
field of the word, and a field has a value exactly when the word under the field's mask is that value in the field's place. -/

namespace Sys2Proof.Machine

/-! ## A field's value and the word under the field's mask -/

/-- A mask of `n` ones from bit `lo` keeps those bits of a number and clears the others. -/
theorem and_shiftedMask (a lo n : Nat) : a &&& (2 ^ n - 1) <<< lo = ((a >>> lo) % 2 ^ n) <<< lo := by
  apply Nat.eq_of_testBit_eq
  intro i
  by_cases hi : lo ≤ i
  · simp [Nat.testBit_two_pow_sub_one, hi, Bool.and_comm]
  · simp [hi]

theorem wordBits_eq_iff_masked {N : Nat} (W : BitVec N) {hi lo v : Nat} (hN : hi - lo + 1 + lo ≤ N)
    (hv : v < 2 ^ (hi - lo + 1)) : (wordBits W hi lo).toNat = v ↔
      W &&& BitVec.ofNat N ((2 ^ (hi - lo + 1) - 1) <<< lo) = BitVec.ofNat N (v <<< lo) := by
  have fits {x : Nat} (hx : x < 2 ^ (hi - lo + 1)) : x <<< lo < 2 ^ N :=
    (Nat.shiftLeft_lt hx).trans_le (Nat.pow_le_pow_right (by norm_num) hN)
  have hmask : 2 ^ (hi - lo + 1) - 1 < 2 ^ (hi - lo + 1) := Nat.sub_lt (Nat.two_pow_pos _) Nat.one_pos
  rw [wordBits, BitVec.extractLsb'_toNat, ← BitVec.toNat_inj, BitVec.toNat_and, BitVec.toNat_ofNat, BitVec.toNat_ofNat,
    Nat.mod_eq_of_lt (fits hv), Nat.mod_eq_of_lt (fits hmask), and_shiftedMask, Nat.shiftLeft_eq, Nat.shiftLeft_eq,
    Nat.mul_left_inj (Nat.two_pow_pos lo).ne']

theorem getLsbD_iff_div {N : Nat} (W : BitVec N) (k : Nat) : W.getLsbD k = true ↔ W.toNat / 2 ^ k % 2 = 1 := by
  rw [BitVec.getLsbD, Nat.testBit_eq_decide_div_mod_eq, decide_eq_true_iff]

/-- A flag is a field of one bit. -/
theorem getLsbD_iff_masked {N : Nat} (W : BitVec N) {k : Nat} (hk : k < N) :
    W.getLsbD k = true ↔ W &&& BitVec.ofNat N (1 <<< k) = BitVec.ofNat N (1 <<< k) := by
  have field := wordBits_eq_iff_masked W (hi := k) (lo := k) (v := 1) (by omega) (by simp)
  rw [wordBits, BitVec.extractLsb'_toNat, Nat.sub_self, Nat.shiftRight_eq_div_pow] at field
  exact (getLsbD_iff_div W k).trans field

/-- The four Reserved frame types are those with bit 2 set; their row carries the code itself (R103). -/
theorem reservedCode_iff_masked (w : BitVec 16) (raw : BitVec 3) :
    4 ≤ (wordBits w 2 0).toNat ∧ raw = wordBits w 2 0 ↔ w &&& 0x0004 = 0x0004 ∧ raw.toNat = w.toNat % 8 := by
  have code : (wordBits w 2 0).toNat = w.toNat % 8 := by rw [wordBits, BitVec.extractLsb'_toNat]; rfl
  have top : w &&& 0x0004 = 0x0004 ↔ w.toNat / 4 % 2 = 1 :=
    (getLsbD_iff_masked w (k := 2) (by norm_num)).symm.trans (getLsbD_iff_div w 2)
  rw [top, ← BitVec.toNat_inj, code]
  omega

/-! ## Which rows a word matches -/

theorem mem_decodeFrameControl_iff (i : Instr) (w : BitVec 16) : i ∈ decodeFrameControl w ↔
    i = .frameControl w ∨ i = frameTypeRow w ∨ i ∈ flagRows w ∨ i = destinationRow w ∨ i = sourceRow w := by
  simp [decodeFrameControl, controlRows, addressRows]

theorem eq_frameTypeRow_iff (i : Instr) (w : BitVec 16) : i = frameTypeRow w ↔
    (wordBits w 2 0).toNat = 0 ∧ i = .ftBeacon ∨ (wordBits w 2 0).toNat = 1 ∧ i = .ftData ∨
    (wordBits w 2 0).toNat = 2 ∧ i = .ftAcknowledgement ∨ (wordBits w 2 0).toNat = 3 ∧ i = .ftMacCommand ∨
    4 ≤ (wordBits w 2 0).toNat ∧ i = .ftReserved (wordBits w 2 0) := by
  rw [frameTypeRow]
  generalize (wordBits w 2 0).toNat = code
  rcases code with _ | _ | _ | _ | code <;> simp

theorem mem_flagRows_iff (i : Instr) (w : BitVec 16) : i ∈ flagRows w ↔
    w.getLsbD 3 = true ∧ i = .flagSec ∨ w.getLsbD 4 = true ∧ i = .flagFp ∨ w.getLsbD 5 = true ∧ i = .flagAr ∨
    w.getLsbD 6 = true ∧ i = .flagPic := by
  simp [flagRows]

/-- A mode is named by the value that its register reads as (R39, R104). -/
theorem addrModeOf_eq_iff (v : BitVec 2) (mode : AddrMode) : addrModeOf v = mode ↔ v.toNat = addrModeCode mode := by
  cases mode <;> decide +revert

theorem eq_destinationRow_iff (i : Instr) (w : BitVec 16) : i = destinationRow w ↔
    (wordBits w 11 10).toNat = 0 ∧ i = .damNoAddress ∨ (wordBits w 11 10).toNat = 1 ∧ i = .damReserved ∨
    (wordBits w 11 10).toNat = 2 ∧ i = .damShort16 ∨ (wordBits w 11 10).toNat = 3 ∧ i = .damLong64 := by
  have code := addrModeOf_eq_iff (wordBits w 11 10)
  rw [destinationRow]
  cases mode : addrModeOf (wordBits w 11 10) <;> simp [(code _).mp mode, addrModeCode]

theorem eq_sourceRow_iff (i : Instr) (w : BitVec 16) : i = sourceRow w ↔
    (wordBits w 15 14).toNat = 0 ∧ i = .samNoAddress ∨ (wordBits w 15 14).toNat = 1 ∧ i = .samReserved ∨
    (wordBits w 15 14).toNat = 2 ∧ i = .samShort16 ∨ (wordBits w 15 14).toNat = 3 ∧ i = .samLong64 := by
  have code := addrModeOf_eq_iff (wordBits w 15 14)
  rw [sourceRow]
  cases mode : addrModeOf (wordBits w 15 14) <;> simp [(code _).mp mode, addrModeCode]

/-- No message row is matched by a frame-control word (R126). -/
theorem kind?_eq_none_of_mem_decodeFrameControl {i : Instr} {w : BitVec 16} (h : i ∈ decodeFrameControl w) :
    i.kind? = none := by
  rw [mem_decodeFrameControl_iff, eq_frameTypeRow_iff, mem_flagRows_iff, eq_destinationRow_iff, eq_sourceRow_iff] at h
  cases i with
  | beacon | joinRequest | joinConfirmation | almanac | fwUpdateRequest | position | groupPoll | response | service
  | fwUpdateData | bridgeNodeBeacon | iotDataDownlink | iotDataUplink => simp at h
  | _ => rfl

/-- Settles O6: membership of a row is a value of its field, and that is the masked word's being the row's match value. -/
theorem frameControlRowsMatchTheirMasks : Obligations.FrameControlRowsMatchTheirMasks := by
  unfold Obligations.FrameControlRowsMatchTheirMasks
  intro w
  have field (hi lo v : Nat) (hN : hi - lo + 1 + lo ≤ 16 := by norm_num) (hv : v < 2 ^ (hi - lo + 1) := by norm_num) :=
    wordBits_eq_iff_masked w hN hv
  have flag (k : Nat) (hk : k < 16 := by norm_num) := getLsbD_iff_masked w hk
  refine ⟨?_, ?_, ?_, ?_, ?_, ?_, ?_, ?_, ?_, ?_, ?_, ?_, ?_, ?_, ?_, ?_, ?_, ?_, ?noMessage⟩
  case noMessage =>
    intro i k hk hmem
    simp [kind?_eq_none_of_mem_decodeFrameControl hmem] at hk
  all_goals simp only [mem_decodeFrameControl_iff, eq_frameTypeRow_iff, mem_flagRows_iff, eq_destinationRow_iff,
    eq_sourceRow_iff, reduceCtorEq, Instr.frameControl.injEq, Instr.ftReserved.injEq, and_true, and_false, or_false,
    false_or, implies_true]
  exacts [field 2 0 0, field 2 0 1, field 2 0 2, field 2 0 3, reservedCode_iff_masked w, flag 3, flag 4, flag 5, flag 6,
    field 11 10 0, field 11 10 1, field 11 10 2, field 11 10 3, field 15 14 0, field 15 14 1, field 15 14 2,
    field 15 14 3]

/-! ## A row and its encoding -/

theorem frameControl_mem_of_encoded (fcw : BitVec 16) :
    .frameControl fcw ∈ decodeFrameControl (BitVec.ofNat 16 (LE (littleOctets 2 fcw.toNat))) := by
  have word : BitVec.ofNat 16 (LE (littleOctets 2 fcw.toNat)) = fcw := ofNat_LE_littleOctets 2 fcw
  rw [word, mem_decodeFrameControl_iff]
  exact .inl rfl

/-- The word that carries a Reserved code and nothing else, for the four codes there are (R103). -/
theorem ftReserved_mem_of_encoded {raw : BitVec 3} (h : reservedTypeCode raw = true) :
    .ftReserved raw ∈ decodeFrameControl (BitVec.ofNat 16 (LE (littleOctets 2 raw.toNat))) := by
  decide +revert

/-- Settles O7: every row's encoding is the two octets of a word. For the rows without an operand it is one fixed word,
which the model evaluates. -/
theorem decodeOfEncodedFrameControlRow : Obligations.DecodeOfEncodedFrameControlRow := by
  unfold Obligations.DecodeOfEncodedFrameControlRow
  intro p i hwf hk
  cases i with
  | frameControl fcw => exact ⟨_, _, rfl, frameControl_mem_of_encoded fcw⟩
  | ftReserved raw => exact ⟨_, _, rfl, ftReserved_mem_of_encoded hwf⟩
  | beacon | joinRequest | joinConfirmation | almanac | fwUpdateRequest | position | groupPoll | response | service
  | fwUpdateData | bridgeNodeBeacon | iotDataDownlink | iotDataUplink => cases hk
  | _ => exact ⟨_, _, rfl, by decide⟩

end Sys2Proof.Machine
end

section
/-! PROOFS. What steers a decode (30_encoding.md R122): of the frame-control word only DAM, SAM and PIC reach the header walk, and
every other octet is read past the word. So exchanging the word for one alike in these changes the result in the fields that
hold the word alone. -/

namespace Sys2Proof.Machine

/-! ## Words alike in the modes and PIC -/

theorem getLsbD_eq_of_masked_eq {N : Nat} {v w mask : BitVec N} (h : v &&& mask = w &&& mask) {k : Nat}
    (hk : mask.getLsbD k = true) : v.getLsbD k = w.getLsbD k := by
  simpa [hk] using congrArg (·.getLsbD k) h

theorem wordBits_eq_of_masked_eq {N : Nat} {v w mask : BitVec N} (h : v &&& mask = w &&& mask) {hi lo : Nat}
    (covers : ∀ j, j < hi - lo + 1 → mask.getLsbD (lo + j) = true) : wordBits v hi lo = wordBits w hi lo := by
  apply BitVec.eq_of_getLsbD_eq
  intro j hj
  simp only [wordBits, BitVec.getLsbD_extractLsb', getLsbD_eq_of_masked_eq h (covers j hj)]

/-- Two frame-control words give the header walk the same directions (R122, R164). -/
structure SteerAlike (v w : BitVec 16) : Prop where
  pic : (decodeWord v).pic = (decodeWord w).pic
  dam : (decodeWord v).dam = (decodeWord w).dam
  sam : (decodeWord v).sam = (decodeWord w).sam

/-- The mask 0xcc40 covers PIC (bit 6), DAM (bits 11:10) and SAM (bits 15:14). -/
theorem steerAlike_of_masked_eq {v w : BitVec 16} (h : v &&& 0xcc40#16 = w &&& 0xcc40#16) : SteerAlike v w where
  pic := getLsbD_eq_of_masked_eq h (by decide)
  dam := congrArg addrModeOf (wordBits_eq_of_masked_eq h (by decide))
  sam := congrArg addrModeOf (wordBits_eq_of_masked_eq h (by decide))

theorem headerLen_eq_of_steerAlike {v w : BitVec 16} (h : SteerAlike v w) : headerLen v = headerLen w := by
  simp only [headerLen, h.pic, h.dam, h.sam]

theorem three_le_headerLen (w : BitVec 16) : 3 ≤ headerLen w := by
  rw [headerLen]; omega

/-! ## decodeFrame by its two outcomes -/

/-- The frame-control word of a frame (R102, R180). -/
def controlWord (F : List Octet) : BitVec 16 := BitVec.ofNat 16 (LE (sliceAt F 0 2))

/-- The length of a frame's payload region, between header and FCS (R290). -/
def regionLength (F : List Octet) : Nat := F.length - 2 - headerLen (controlWord F)

/-- A frame's payload region (R290). -/
def payloadRegion (F : List Octet) : List Octet := sliceAt F (headerLen (controlWord F)) (regionLength F)

/-- The result of a frame whose region dispatches to `msgs` (R290). -/
def assembledFrame (F : List Octet) (msgs : List Record) : Frame :=
  { raw := F, header := decodeHeader F, payload := { messages := msgs, raw := payloadRegion F, length := regionLength F },
    fcs := (F.getD (F.length - 2) 0, F.getD (F.length - 1) 0) }

theorem decodeFrame_of_short (p : Params) (t23 : Bool) {F : List Octet} (short : F.length < headerLen (controlWord F) + 2) :
    decodeFrame p t23 F = .error .frameTooShort := by
  rw [controlWord] at short
  rw [decodeFrame, if_pos short, ite_self]

theorem decodeFrame_of_fits (p : Params) (t23 : Bool) {F : List Octet} (fits : headerLen (controlWord F) + 2 ≤ F.length) :
    decodeFrame p t23 F = (dispatch p t23 (payloadRegion F)).map (assembledFrame F) := by
  have two : ¬ F.length < 2 := by omega
  have long := Nat.not_lt.mpr fits
  rw [controlWord] at long
  simp only [decodeFrame, if_neg two, if_neg long, payloadRegion, regionLength, controlWord]
  cases dispatch p t23 _ <;> rfl

/-! ## Octets past the word -/

theorem sliceAt_zero_two (o0 o1 : Octet) (rest : List Octet) : sliceAt (o0 :: o1 :: rest) 0 2 = [o0, o1] := rfl

theorem sliceAt_beyond_two (o0 o1 : Octet) (rest : List Octet) {k : Nat} (n : Nat) (hk : 2 ≤ k) :
    sliceAt (o0 :: o1 :: rest) k n = sliceAt rest (k - 2) n := by
  obtain ⟨j, rfl⟩ := Nat.exists_eq_add_of_le' hk
  rfl

theorem getD_beyond_two (o0 o1 d : Octet) (rest : List Octet) {k : Nat} (hk : 2 ≤ k) :
    (o0 :: o1 :: rest).getD k d = rest.getD (k - 2) d := by
  obtain ⟨j, rfl⟩ := Nat.exists_eq_add_of_le' hk
  rfl

/-! ## Exchanging the word -/

/-- The result `f` with the frame's first two octets exchanged for `o0` and `o1`: its raw octets and its frame-control
fields are theirs, the rest is kept. -/
def Frame.withControlOctets (f : Frame) (o0 o1 : Octet) (rest : List Octet) : Frame :=
  { f with raw := o0 :: o1 :: rest, header := { f.header with fc := decodeFC o0 o1 } }

section
variable {a0 a1 b0 b1 : Octet} (rest : List Octet)
  (h : SteerAlike (BitVec.ofNat 16 (LE [a0, a1])) (BitVec.ofNat 16 (LE [b0, b1])))
include h

/-- The walk's cursor starts past the word, so every field but the word's own is read from the common octets (R180). -/
theorem decodeHeader_of_steerAlike :
    decodeHeader (b0 :: b1 :: rest) = { decodeHeader (a0 :: a1 :: rest) with fc := decodeFC b0 b1 } := by
  simp only [decodeHeader, sliceAt_zero_two, h.pic, h.dam, h.sam, decodeFC]
  cases addressOctets (decodeWord (BitVec.ofNat 16 (LE [b0, b1]))).dam <;>
    simp (disch := omega) only [sliceAt_beyond_two]

theorem headerLen_controlWord_of_steerAlike :
    headerLen (controlWord (a0 :: a1 :: rest)) = headerLen (controlWord (b0 :: b1 :: rest)) :=
  headerLen_eq_of_steerAlike h

theorem regionLength_of_steerAlike : regionLength (a0 :: a1 :: rest) = regionLength (b0 :: b1 :: rest) :=
  congrArg (rest.length + 2 - 2 - ·) (headerLen_eq_of_steerAlike h)

theorem payloadRegion_of_steerAlike : payloadRegion (a0 :: a1 :: rest) = payloadRegion (b0 :: b1 :: rest) := by
  have hlen := three_le_headerLen (controlWord (b0 :: b1 :: rest))
  rw [payloadRegion, payloadRegion, regionLength_of_steerAlike rest h, headerLen_controlWord_of_steerAlike rest h,
    sliceAt_beyond_two _ _ _ _ (by omega), sliceAt_beyond_two _ _ _ _ (by omega)]

/-- A frame that holds header and FCS has its last two octets past the word. -/
theorem assembledFrame_of_steerAlike (fits : headerLen (controlWord (b0 :: b1 :: rest)) + 2 ≤ (b0 :: b1 :: rest).length)
    (msgs : List Record) :
    assembledFrame (b0 :: b1 :: rest) msgs = (assembledFrame (a0 :: a1 :: rest) msgs).withControlOctets b0 b1 rest := by
  have hlen := three_le_headerLen (controlWord (b0 :: b1 :: rest))
  rw [List.length_cons, List.length_cons] at fits
  simp (disch := omega) only [assembledFrame, Frame.withControlOctets, decodeHeader_of_steerAlike rest h,
    regionLength_of_steerAlike rest h, payloadRegion_of_steerAlike rest h, List.length_cons, getD_beyond_two]

/-- Exchanging the word keeps an error and exchanges the word's fields in a result (R122). -/
theorem decodeFrame_of_steerAlike (p : Params) (t23 : Bool) :
    decodeFrame p t23 (b0 :: b1 :: rest) = (decodeFrame p t23 (a0 :: a1 :: rest)).map (·.withControlOctets b0 b1 rest) := by
  have sameLen := headerLen_controlWord_of_steerAlike rest h
  rcases Nat.lt_or_ge (b0 :: b1 :: rest).length (headerLen (controlWord (b0 :: b1 :: rest)) + 2) with short | fits
  · rw [decodeFrame_of_short p t23 short, decodeFrame_of_short p t23 (F := a0 :: a1 :: rest) (sameLen ▸ short), Except.map]
  · rw [decodeFrame_of_fits p t23 fits, decodeFrame_of_fits p t23 (F := a0 :: a1 :: rest) (sameLen ▸ fits),
      payloadRegion_of_steerAlike rest h]
    cases dispatch p t23 (payloadRegion (b0 :: b1 :: rest)) with
    | error e => rfl
    | ok msgs => exact congrArg Except.ok (assembledFrame_of_steerAlike rest h fits msgs)

end

/-- Settles O26: words that agree under the mask steer alike, so the one decode is the other with the word exchanged. -/
theorem onlyModesAndCompressionSteer : Obligations.OnlyModesAndCompressionSteer := by
  unfold Obligations.OnlyModesAndCompressionSteer
  intro p t23 a0 a1 b0 b1 rest hmask
  have exchanged := decodeFrame_of_steerAlike rest (steerAlike_of_masked_eq hmask) p t23
  constructor
  · intro e herr
    rw [exchanged, herr, Except.map]
  · intro f hok
    rw [exchanged, hok, Except.map, Frame.withControlOctets]

end Sys2Proof.Machine
end

section
/-! PROOFS. The four primitives (40_primitives.md R140 to R151): the bits of a word of octets are the octets' own bits, a range
of a word is a piece of its bit string, and the value of a sequence is the weighted sum of its octets. -/

namespace Sys2Proof.Machine

/-! ## The bits of a word of octets (R13, R151) -/

/-- The octet at the lowest index holds the low eight bits of the word (R13). -/
theorem testBit_LE_cons (o : Octet) (os : List Octet) (k : Nat) :
    (LE (o :: os)).testBit k = if k < 8 then o.getLsbD k else (LE os).testBit (k - 8) := by
  rw [LE_cons, Nat.add_comm, show 256 = 2 ^ 8 from rfl, Nat.testBit_two_pow_mul_add _ o.isLt, BitVec.getLsbD]

theorem testBit_LE (os : List Octet) (k : Nat) : (LE os).testBit k = (os.getD (k / 8) 0).getLsbD (k % 8) := by
  induction os generalizing k with
  | nil => simp
  | cons o os ih =>
    rw [testBit_LE_cons]
    split
    case isTrue low => rw [Nat.div_eq_of_lt low, Nat.mod_eq_of_lt low, List.getD_cons_zero]
    case isFalse high =>
      rw [ih, show k / 8 = (k - 8) / 8 + 1 by omega, show k % 8 = (k - 8) % 8 by omega, List.getD_cons_succ]

theorem getLsbD_fieldW (r : List Octet) (off : Nat) {w k : Nat} (hk : k < 8 * w) :
    (fieldW r off w).getLsbD k = (r.getD (off + k / 8) 0).getLsbD (k % 8) := by
  have inField : k / 8 < w := by omega
  rw [fieldW, BitVec.getLsbD_ofNat, decide_eq_true hk, Bool.true_and, testBit_LE]
  simp [List.getD_eq_getElem?_getD, inField]

/-- The word of a sequence fits its width, so no bit of the value is lost (R13). -/
theorem toNat_ofNat_LE {w : Nat} {os : List Octet} (h : os.length = w) :
    (BitVec.ofNat (8 * w) (LE os)).toNat = LE os := by
  have fits : LE os < 2 ^ (8 * w) := by rw [pow_mul, ← h]; exact LE_lt os
  rw [BitVec.toNat_ofNat, Nat.mod_eq_of_lt fits]

/-! ## Bit strings (R15) -/

@[simp] theorem bitString_length {n : Nat} (W : BitVec n) : (bitString W).length = n := by simp [bitString]

@[simp] theorem bitString_getElem {n : Nat} (W : BitVec n) {p : Nat} (hp : p < (bitString W).length) :
    (bitString W)[p] = W.getLsbD (n - 1 - p) := by simp [bitString]

/-- The bit string of a concatenation writes the high word first. -/
theorem bitString_append {n m : Nat} (V : BitVec n) (W : BitVec m) : bitString (V ++ W) = bitString V ++ bitString W := by
  apply List.ext_getElem
  · simp
  intro p hp _
  rw [bitString_length] at hp
  rw [bitString_getElem, BitVec.getLsbD_append, List.getElem_append]
  simp only [bitString_length, bitString_getElem]
  by_cases high : p < n
  · rw [dif_pos high, if_neg (by omega), show n + m - 1 - p - m = n - 1 - p by omega]
  · rw [dif_neg high, if_pos (by omega), show n + m - 1 - p = m - 1 - (p - n) by omega]

/-- A range of a word is the piece of its bit string that ends `lo` bits before the right end. -/
theorem bitString_extractLsb' {n : Nat} (W : BitVec n) {lo len : Nat} (h : lo + len ≤ n) :
    bitString (W.extractLsb' lo len) = ((bitString W).drop (n - (lo + len))).take len := by
  apply List.ext_getElem
  · simp; omega
  intro p hp _
  rw [bitString_length] at hp
  have inRange : len - 1 - p < len := by omega
  have samePlace : lo + (len - 1 - p) = n - 1 - (n - (lo + len) + p) := by omega
  simp [inRange, samePlace]

/-- One more octet at the front of a sequence stands at the right end of its word (R13). -/
theorem ofNat_LE_cons (o : Octet) (os : List Octet) :
    BitVec.ofNat (8 * (os.length + 1)) (LE (o :: os)) = BitVec.ofNat (8 * os.length) (LE os) ++ o := by
  apply BitVec.eq_of_getLsbD_eq
  intro k hk
  rw [BitVec.getLsbD_ofNat, decide_eq_true hk, Bool.true_and, testBit_LE_cons, BitVec.getLsbD_append,
    BitVec.getLsbD_ofNat]
  split
  case isTrue => rfl
  case isFalse => rw [decide_eq_true (by omega), Bool.true_and]

/-- The last octet of a sequence is written first: the word's most significant octet (R13, R15). -/
theorem bitString_ofNat_LE {w : Nat} {os : List Octet} (h : os.length = w) :
    bitString (BitVec.ofNat (8 * w) (LE os)) = os.reverse.flatMap bitString := by
  subst h
  induction os with
  | nil => rfl
  | cons o os ih =>
    rw [List.length_cons, ofNat_LE_cons, bitString_append, ih, List.reverse_cons, List.flatMap_append,
      List.flatMap_singleton]

/-! ## OCT2BITS (R140) -/

theorem oct2bits_of_short {os : List Octet} {count : Nat} (h : os.length < count) (order : ByteOrder) :
    oct2bits os count order = .error .outOfRange := if_pos h

theorem oct2bits_of_fits {os : List Octet} {count : Nat} (h : count ≤ os.length) (order : ByteOrder) :
    oct2bits os count order = .ok (BitVec.ofNat (8 * count) (orderedValue order (os.take count))) :=
  if_neg (Nat.not_lt.mpr h)

/-- Settles O9: the little order reads the octets from the right end of the word, and the big order is the little order of
the reversed octets. -/
theorem octetsToBitsReassembles : Obligations.OctetsToBitsReassembles := by
  unfold Obligations.OctetsToBitsReassembles
  intro os count order
  refine ⟨fun short => oct2bits_of_short short order, fun fits => ⟨_, oct2bits_of_fits fits order, ?big, ?little⟩⟩
  case big =>
    rintro rfl
    have len : (os.take count).reverse.length = count := by simpa using fits
    refine ⟨toNat_ofNat_LE len, ?_⟩
    rw [orderedValue, BE_eq_LE_reverse, bitString_ofNat_LE len, List.reverse_reverse]
  case little =>
    rintro rfl
    have len : (os.take count).length = count := List.length_take_of_le fits
    exact ⟨toNat_ofNat_LE len, bitString_ofNat_LE len⟩

/-! ## SLICEBITS (R141, R142) -/

section
variable {n : Nat} (W : BitVec n) {start stop : Nat}

theorem sliceBits_of_width_ne {total : Nat} (h : total ≠ n) (fromLsb : Bool) :
    sliceBits W start stop total fromLsb = .error .widthMismatch := if_pos h

theorem sliceBits_of_outside (h : n ≤ stop ∨ stop < start) (fromLsb : Bool) :
    sliceBits W start stop n fromLsb = .error .outOfRange := by
  rw [sliceBits, if_neg (not_not_intro rfl), if_pos h]

theorem sliceBits_of_inside (hstop : stop < n) (hstart : start ≤ stop) (fromLsb : Bool) :
    sliceBits W start stop n fromLsb =
      .ok (W.extractLsb' (if fromLsb then start else n - 1 - stop) (stop - start + 1)) := by
  rw [sliceBits, if_neg (not_not_intro rfl), if_neg (by omega)]
  cases fromLsb <;> rfl

end

/-- Settles O10: either numbering extracts a range of the word, whose bit string is the piece between the range's ends. -/
theorem sliceBitsSelectsTheRange : Obligations.SliceBitsSelectsTheRange := by
  unfold Obligations.SliceBitsSelectsTheRange
  intro n W start stop total
  refine ⟨fun h b => sliceBits_of_width_ne W h b, ?outside, ?inside⟩
  case outside =>
    rintro rfl h b
    exact sliceBits_of_outside W h b
  case inside =>
    rintro rfl hstop hstart
    refine ⟨⟨_, sliceBits_of_inside W hstop hstart true, ?value, ?fromLsb⟩,
      ⟨_, sliceBits_of_inside W hstop hstart false, ?fromLeft⟩⟩
    case value => rw [if_pos rfl, BitVec.extractLsb'_toNat, Nat.shiftRight_eq_div_pow]
    case fromLsb =>
      rw [if_pos rfl, bitString_extractLsb' W (by omega),
        show total - (start + (stop - start + 1)) = total - 1 - stop by omega]
    case fromLeft =>
      rw [if_neg Bool.false_ne_true, bitString_extractLsb' W (by omega),
        show total - (total - 1 - stop + (stop - start + 1)) = start by omega]

/-! ## Unsigned NUMDEC (R146, R148) -/

/-- The unsigned value of `w` octets is the word that OCT2BITS makes of them (R140, R146). -/
theorem numdecUnsigned_eq_oct2bits (S : List Octet) (w : Nat) (order : ByteOrder) :
    numdecUnsigned S w order = oct2bits S w order := rfl

theorem BE_cons (o : Octet) (os : List Octet) : BE (o :: os) = o.toNat * 256 ^ os.length + BE os := by
  rw [BE, List.reverse_cons, LE_append, LE_cons, LE_nil, List.length_reverse, ← BE]
  ring

/-- In the little order place `i` weighs `256^i` (R13). -/
theorem LE_take_eq_sum {S : List Octet} {w : Nat} (h : w ≤ S.length) :
    LE (S.take w) = ((List.range w).map fun i => (S.getD i 0).toNat * 256 ^ i).sum := by
  induction S generalizing w with
  | nil => rw [Nat.le_zero.mp h]; rfl
  | cons o S ih =>
    cases w with
    | zero => rfl
    | succ w =>
      rw [List.take_succ_cons, LE_cons, ih (Nat.le_of_succ_le_succ h), List.range_succ_eq_map, ← List.sum_map_mul_left]
      simp [Function.comp_def, pow_succ', Nat.mul_left_comm]

/-- In the big order place `i` of `w` weighs `256^(w - 1 - i)` (R13). -/
theorem BE_take_eq_sum {S : List Octet} {w : Nat} (h : w ≤ S.length) :
    BE (S.take w) = ((List.range w).map fun i => (S.getD i 0).toNat * 256 ^ (w - 1 - i)).sum := by
  induction S generalizing w with
  | nil => rw [Nat.le_zero.mp h]; rfl
  | cons o S ih =>
    cases w with
    | zero => rfl
    | succ w =>
      have inTail : w ≤ S.length := Nat.le_of_succ_le_succ h
      rw [List.take_succ_cons, BE_cons, List.length_take_of_le inTail, ih inTail, List.range_succ_eq_map]
      simp [Function.comp_def, Nat.sub_sub, Nat.add_comm 1]

/-- Settles O12: the word of the first `w` octets holds their whole value, which is the weighted sum. -/
theorem unsignedNumericDecode : Obligations.UnsignedNumericDecode := by
  unfold Obligations.UnsignedNumericDecode
  intro S w
  simp only [numdecUnsigned_eq_oct2bits]
  refine ⟨fun short order => oct2bits_of_short short order, fun fits =>
    ⟨⟨_, oct2bits_of_fits fits .little, ?little⟩, ⟨_, oct2bits_of_fits fits .big, ?big⟩⟩⟩
  case little => exact (toNat_ofNat_LE (List.length_take_of_le fits)).trans (LE_take_eq_sum fits)
  case big =>
    have len : (S.take w).reverse.length = w := by simpa using fits
    exact (toNat_ofNat_LE len).trans (BE_take_eq_sum fits)

/-! ## The bit-flag view (R151) -/

/-- Settles O14: a flag is a bit of the field's word, so a bit of one octet; SLICEBITS of `k..k` extracts that bit. -/
theorem flagViewReadsOctetBits : Obligations.FlagViewReadsOctetBits := by
  unfold Obligations.FlagViewReadsOctetBits
  intro r off w k _ hk
  refine ⟨getLsbD_fieldW r off hk, _, sliceBits_of_inside _ hk le_rfl true, ?_⟩
  rw [if_pos rfl, BitVec.getLsbD_extractLsb', decide_eq_true (Nat.succ_pos _), Bool.true_and, Nat.add_zero, flagBit]

end Sys2Proof.Machine
end

section
/-! PROOFS. The rows that decode the frame-control word itself (41_frame_control.md R160 to R164): a field of the word is a
quotient of its value, the frame type and the modes stand in a table under their codes, and within the header step a row is the
write of its registers. -/

namespace Sys2Proof.Machine

/-! ## The fields of a word by arithmetic (R102, R160) -/

theorem wordBits_eq_ofNat_div {N : Nat} (W : BitVec N) (hi lo : Nat) :
    wordBits W hi lo = BitVec.ofNat (hi - lo + 1) (W.toNat / 2 ^ lo) := by
  rw [← Nat.shiftRight_eq_div_pow]
  rfl

theorem wordBits_toNat {N : Nat} (W : BitVec N) (hi lo : Nat) :
    (wordBits W hi lo).toNat = W.toNat / 2 ^ lo % 2 ^ (hi - lo + 1) := by
  rw [wordBits_eq_ofNat_div, BitVec.toNat_ofNat]

/-- The quotient of a field that ends at the word's top bit needs no reduction. -/
theorem wordBits_toNat_of_top {N : Nat} (W : BitVec N) {hi lo : Nat} (hN : N ≤ lo + (hi - lo + 1)) :
    (wordBits W hi lo).toNat = W.toNat / 2 ^ lo := by
  rw [wordBits_toNat, Nat.mod_eq_of_lt]
  apply Nat.div_lt_of_lt_mul
  rw [← Nat.pow_add]
  exact W.isLt.trans_le (Nat.pow_le_pow_right (by norm_num) hN)

theorem getLsbD_eq_beq_div {N : Nat} (W : BitVec N) (k : Nat) : W.getLsbD k = (W.toNat / 2 ^ k % 2 == 1) := by
  rw [Bool.eq_iff_iff, beq_iff_eq, getLsbD_iff_div]

/-- R161's map as a table: the codes past its end are the Reserved ones. -/
theorem frameTypeOf_eq_getD (v : BitVec 3) :
    frameTypeOf v = [FrameType.beacon, .data, .acknowledgement, .macCommand].getD v.toNat .reserved := by
  rw [frameTypeOf]
  rcases v.toNat with _ | _ | _ | _ | code <;> rfl

/-- R162's map as a table. -/
theorem addrModeOf_eq_getD (v : BitVec 2) :
    addrModeOf v = [AddrMode.noAddress, .reserved, .short16].getD v.toNat .long64 := by
  rw [addrModeOf]
  rcases v.toNat with _ | _ | _ | code <;> rfl

/-- DecodeFC by arithmetic on the word's value (R160 to R164). -/
theorem decodeWord_eq (w : BitVec 16) : decodeWord w =
    { fcw := w
      ft := [FrameType.beacon, .data, .acknowledgement, .macCommand].getD (w.toNat % 8) .reserved
      sec := w.toNat / 8 % 2 == 1
      fp := w.toNat / 16 % 2 == 1
      ar := w.toNat / 32 % 2 == 1
      pic := w.toNat / 64 % 2 == 1
      dam := [AddrMode.noAddress, .reserved, .short16].getD (w.toNat / 1024 % 4) .long64
      fv := BitVec.ofNat 2 (w.toNat / 4096)
      sam := [AddrMode.noAddress, .reserved, .short16].getD (w.toNat / 16384) .long64 } := by
  have typeCode : (wordBits w 2 0).toNat = w.toNat % 8 := by simp [wordBits_toNat]
  have destinationCode : (wordBits w 11 10).toNat = w.toNat / 1024 % 4 := wordBits_toNat w 11 10
  have version : wordBits w 13 12 = BitVec.ofNat 2 (w.toNat / 4096) := wordBits_eq_ofNat_div w 13 12
  have sourceCode : (wordBits w 15 14).toNat = w.toNat / 16384 := wordBits_toNat_of_top w le_rfl
  rw [decodeWord, frameTypeOf_eq_getD, addrModeOf_eq_getD, addrModeOf_eq_getD, typeCode, destinationCode, version,
    sourceCode]
  simp only [getLsbD_eq_beq_div, Nat.reducePow]

/-! ## The rows within the header step -/

/-- Settles O18: within the header step the row writes what DecodeFC reads of the word, and moves the cursor past it. -/
theorem frameControlRowWritesFields : Obligations.FrameControlRowWritesFields := by
  unfold Obligations.FrameControlRowWritesFields
  intro w s hp
  rw [exec, execFrameControl, inHeaderStep_of_hdr hp, decodeWord_eq]
  rfl

/-- A row that only writes header registers writes them within the header step, and leaves the rest (R180, R308). -/
theorem inHeaderStep_setHeader {s : State} (hp : s.phase = .hdr) (f : HeaderRegs → HeaderRegs) :
    inHeaderStep s (.next (s.setHeader f)) = .next { s with hdr := f s.hdr } := inHeaderStep_of_hdr hp _

/-- Settles O19: each row is, by its arm of `exec`, the write of its one register. -/
theorem frameTypeAndFlagRowsWriteOneRegister : Obligations.FrameTypeAndFlagRowsWriteOneRegister := by
  unfold Obligations.FrameTypeAndFlagRowsWriteOneRegister
  intro s hp
  have typeRow (t : FrameType) := inHeaderStep_setHeader hp fun h => { h with ft := t }
  exact ⟨typeRow .beacon, typeRow .data, typeRow .acknowledgement, typeRow .macCommand, fun _ => typeRow .reserved,
    inHeaderStep_setHeader hp fun h => { h with sec := true }, inHeaderStep_setHeader hp fun h => { h with fp := true },
    inHeaderStep_setHeader hp fun h => { h with ar := true }, inHeaderStep_setHeader hp fun h => { h with pic := true }⟩

end Sys2Proof.Machine
end

section
/-! PROOFS. The header step (42_mac_header.md R180 to R191, 46_frame_assembler.md R308). Its rows run one after the other: the word
writes its nine registers, the type and flag rows then find their own already written, the sequence number is read, and each
address row reads what its mode announces and moves the cursor past it. -/

namespace Sys2Proof.Machine

/-! ## The address steps inside the frame (R183 to R187) -/

theorem memRead_eq_octetsAt {s : State} {a n : Nat} (h : a + n ≤ s.flen) : s.memRead a n = .ok (s.octetsAt a n) :=
  memRead_ok s a n h

theorem destinationPresent_of_fits {s : State} (mode : AddrMode) (n : Nat) (h : s.hc + 2 + n ≤ s.flen) :
    destinationPresent s mode n = .next { s with
      hc := s.hc + 2 + n
      hdr := { s.hdr with
        dam := mode, dpanV := true, dpan := BitVec.ofNat 16 (LE (s.octetsAt s.hc 2))
        daddrV := true, daddr := BitVec.ofNat 64 (LE (s.octetsAt (s.hc + 2) n)) } } := by
  rcases destinationPresent_cases s mode n with ⟨_, inside⟩ | ⟨beyond, _⟩
  · exact inside
  · omega

theorem sourceAddress_of_fits {s : State} {n pos : Nat} (mode : AddrMode) (v : Bool) (span : BitVec 16)
    (h : pos + n ≤ s.flen) : sourceAddress s mode n pos v span = .next { s with
      hc := pos + n
      hdr := { s.hdr with
        sam := mode, spanV := v, span := span
        saddrV := true, saddr := BitVec.ofNat 64 (LE (s.octetsAt pos n)) } } := by
  rcases sourceAddress_cases s mode n pos v span with ⟨_, inside⟩ | ⟨beyond, _⟩
  · exact inside
  · omega

/-- Under PIC no source PAN identifier is read (R186). -/
theorem sourcePresent_of_pic {s : State} (hpic : s.hdr.pic = true) (mode : AddrMode) (n : Nat) :
    sourcePresent s mode n = sourceAddress s mode n s.hc false 0 := if_pos hpic

theorem sourcePresent_of_not_pic {s : State} (hpic : s.hdr.pic = false) (h : s.hc + 2 ≤ s.flen) (mode : AddrMode)
    (n : Nat) : sourcePresent s mode n =
      sourceAddress s mode n (s.hc + 2) true (BitVec.ofNat 16 (LE (s.octetsAt s.hc 2))) := by
  rw [sourcePresent, hpic, if_neg Bool.false_ne_true, memRead_eq_octetsAt h]

/-- Settles O20: within the header step each row is its destination step, whose reads are inside the frame. -/
theorem destinationRowsWalk : Obligations.DestinationRowsWalk := by
  unfold Obligations.DestinationRowsWalk
  intro s hp
  have row (act : Result) := inHeaderStep_of_hdr hp act
  exact ⟨row _, row _, fun fits => (row _).trans (destinationPresent_of_fits .short16 2 fits),
    fun fits => (row _).trans (destinationPresent_of_fits .long64 8 fits)⟩

/-- Settles O21: within the header step each row is its source step; PIC decides where the address begins. -/
theorem sourceRowsWalk : Obligations.SourceRowsWalk := by
  unfold Obligations.SourceRowsWalk
  intro s hp
  have row (act : Result) := inHeaderStep_of_hdr hp act
  have compressed (mode : AddrMode) (n : Nat) (hpic : s.hdr.pic = true) (fits : s.hc + n ≤ s.flen) :=
    (sourcePresent_of_pic hpic mode n).trans (sourceAddress_of_fits mode false 0 fits)
  have full (mode : AddrMode) (n : Nat) (hpic : s.hdr.pic = false) (fits : s.hc + 2 + n ≤ s.flen) :=
    (sourcePresent_of_not_pic hpic (by omega) mode n).trans (sourceAddress_of_fits mode true _ fits)
  exact ⟨row _, row _,
    fun hpic fits => (row _).trans (compressed .short16 2 hpic fits),
    fun hpic fits => (row _).trans (full .short16 2 hpic fits),
    fun hpic fits => (row _).trans (compressed .long64 8 hpic fits),
    fun hpic fits => (row _).trans (full .long64 8 hpic fits)⟩

/-! ## The engine's turn (R308, R309; assumption 3) -/

/-- With no turn listed or on `pass`, the step is the engine's turn (assumption 3). -/
theorem step_eq_engineTurn {s e : State} (h : s.EngineMovesFrom e) : step s = engineTurn e := by
  rw [step, turn]
  rcases h with ⟨noTurn, rfl⟩ | ⟨ts, passFirst, rfl⟩
  · rw [noTurn]
  · rw [passFirst]

theorem engineTurn_of_hdr {s : State} (hp : s.phase = .hdr) : engineTurn s = hdrStep s := by
  rw [engineTurn, hp]

theorem engineTurn_of_region_left {s : State} (hp : s.phase = .disp) (h : s.cur < s.rlen) :
    engineTurn s = dispStep s := by
  rw [engineTurn, hp]
  exact if_pos h

/-- A region inside the frame can be fetched from the cursor to its end (R72, R81). -/
theorem fetchRegion_of_fits {s : State} (inFrame : s.hdr.hlen + s.rlen ≤ s.flen) (h : s.cur < s.rlen) :
    s.fetchRegion = .ok (s.bufferAt 0 s.rem) :=
  memRead_eq_octetsAt (by omega)

theorem dispStep_of_instr {s : State} {i : Instr} (inFrame : s.hdr.hlen + s.rlen ≤ s.flen) (h : s.cur < s.rlen)
    (decoded : decodeRegion s.params s.cfgT23 (s.bufferAt 0 s.rem) = .instr i) : dispStep s = exec i s := by
  simp only [dispStep, fetchRegion_of_fits inFrame h, decoded]

theorem headerTooShort_eq_false {s : State} (h2 : 2 ≤ s.flen) (fits : headerLen s.frameControlWord + 2 ≤ s.flen) :
    s.headerTooShort = false := by
  rw [State.headerTooShort, decide_eq_false (by omega), decide_eq_false (by omega), Bool.false_or]

/-- A frame that holds its header and FCS passes R292's test, and the header walk begins (R308). -/
theorem hdrStep_of_fits {s : State} (h2 : 2 ≤ s.flen) (fits : headerLen s.frameControlWord + 2 ≤ s.flen) :
    hdrStep s =
      andThenInHeader (runRows (controlRows s.frameControlWord) s) fun a =>
      andThenInHeader (readSequence a) fun b =>
      andThenInHeader (runRows (addressRows s.frameControlWord) b) fun c => .next (closeHeader c) := by
  rw [hdrStep, headerTooShort_eq_false h2 fits, if_neg Bool.false_ne_true]

theorem andThenInHeader_next {t : State} (ht : t.phase = .hdr) (next : State → Result) :
    andThenInHeader (.next t) next = next t := if_pos ht

theorem runRows_cons_of_next {i : Instr} {s t : State} (rows : List Instr) (h : exec i s = .next t)
    (ht : t.phase = .hdr) : runRows (i :: rows) s = runRows rows t := by
  rw [runRows, h, andThenInHeader_next ht]

/-- Settles O2: the step is the engine's turn, which in its phase is DISPSTEP on the decoded region or HDRSTEP past its
length test. -/
theorem stepRunsTheDecodedRows : Obligations.StepRunsTheDecodedRows := by
  unfold Obligations.StepRunsTheDecodedRows
  refine ⟨?dispatch, ?header, fun i rows s t h ht => runRows_cons_of_next rows h ht⟩
  case dispatch =>
    intro s e i moves hp inFrame left decoded
    rw [step_eq_engineTurn moves, engineTurn_of_region_left hp left, dispStep_of_instr inFrame left decoded]
  case header =>
    intro s e moves hp h2 fits
    rw [step_eq_engineTurn moves, engineTurn_of_hdr hp, hdrStep_of_fits h2 fits]

/-! ## The word's own rows (R181) -/

/-- The state after R181: the nine registers hold the fields of the word `w`, and the cursor is past it. -/
def State.wordWritten (s : State) (w : BitVec 16) : State :=
  let fc := decodeWord w
  { s with
    hc := 2
    hdr := { s.hdr with
      fcw := fc.fcw, ft := fc.ft, sec := fc.sec, fp := fc.fp, ar := fc.ar, pic := fc.pic, dam := fc.dam, fv := fc.fv
      sam := fc.sam } }

theorem exec_frameControl {s : State} (hp : s.phase = .hdr) (w : BitVec 16) :
    exec (.frameControl w) s = .next (s.wordWritten w) := inHeaderStep_of_hdr hp _

/-- Rows that change nothing where they start change nothing in sequence. -/
theorem runRows_of_forall_unchanged {s : State} (hp : s.phase = .hdr) {rows : List Instr}
    (h : ∀ i ∈ rows, exec i s = .next s) : runRows rows s = .next s := by
  induction rows with
  | nil => rfl
  | cons i rows ih =>
    obtain ⟨first, rest⟩ := List.forall_mem_cons.mp h
    rw [runRows_cons_of_next rows first hp, ih rest]

/-- The row of the word's frame type writes what DecodeFC reads of it (R161). -/
theorem exec_frameTypeRow {s : State} (hp : s.phase = .hdr) (w : BitVec 16) :
    exec (frameTypeRow w) s = .next { s with hdr := { s.hdr with ft := (decodeWord w).ft } } := by
  obtain ⟨beacon, data, acknowledgement, macCommand, reserved, _⟩ := frameTypeAndFlagRowsWriteOneRegister s hp
  rw [frameTypeRow, decodeWord, frameTypeOf]
  rcases (wordBits w 2 0).toNat with _ | _ | _ | _ | code
  exacts [beacon, data, acknowledgement, macCommand, reserved _]

/-- A flag's row runs only where the word has the flag set, and R181 has set it already (R163). -/
theorem exec_flagRow_of_wordWritten {s : State} (hp : s.phase = .hdr) {w : BitVec 16} {i : Instr} (hi : i ∈ flagRows w) :
    exec i (s.wordWritten w) = .next (s.wordWritten w) := by
  obtain ⟨_, _, _, _, _, sec, fp, ar, pic⟩ := frameTypeAndFlagRowsWriteOneRegister (s.wordWritten w) hp
  rcases (mem_flagRows_iff i w).mp hi with ⟨hset, rfl⟩ | ⟨hset, rfl⟩ | ⟨hset, rfl⟩ | ⟨hset, rfl⟩
  · rw [sec, ← hset]; rfl
  · rw [fp, ← hset]; rfl
  · rw [ar, ← hset]; rfl
  · rw [pic, ← hset]; rfl

theorem runRows_controlRows {s : State} (hp : s.phase = .hdr) (w : BitVec 16) :
    runRows (controlRows w) s = .next (s.wordWritten w) := by
  rw [controlRows, runRows_cons_of_next _ (exec_frameControl hp w) hp]
  have inStep : (s.wordWritten w).phase = .hdr := hp
  have typeUnchanged : exec (frameTypeRow w) (s.wordWritten w) = .next (s.wordWritten w) := exec_frameTypeRow inStep w
  exact runRows_of_forall_unchanged inStep
    (List.forall_mem_cons.mpr ⟨typeUnchanged, fun _ hi => exec_flagRow_of_wordWritten hp hi⟩)

/-! ## The sequence number (R182) -/

theorem readSequence_of_fits {s : State} (h : s.hc + 1 ≤ s.flen) :
    readSequence s = .next { s with hc := s.hc + 1, hdr := { s.hdr with seq := s.fb.read s.hc } } := by
  have octet : BitVec.ofNat 8 (LE (s.octetsAt s.hc 1)) = s.fb.read s.hc := by simp [State.octetsAt]
  simp only [readSequence, memRead_eq_octetsAt h, octet, State.setHeader]

/-! ## The address rows (R183 to R187) -/

/-- A mode that carries an address (R105). -/
def carriesAddress (m : AddrMode) : Bool := m == .short16 || m == .long64

/-- The octets of the address, for a mode that carries one (R105). -/
def addressSize (m : AddrMode) : Nat := if m = .short16 then 2 else 8

/-- A source PAN identifier is there: the mode carries an address, and PIC is clear (R186). -/
def carriesSourcePan (pic : Bool) (m : AddrMode) : Bool := carriesAddress m && !pic

/-- The state after the destination step of mode `m` (R183 to R185). -/
def State.destinationWritten (s : State) (m : AddrMode) : State :=
  { s with
    hc := if carriesAddress m then s.hc + 2 + addressSize m else s.hc
    hdr := { s.hdr with
      dam := m
      dpanV := carriesAddress m
      dpan := if carriesAddress m then BitVec.ofNat 16 (LE (s.octetsAt s.hc 2)) else 0
      daddrV := carriesAddress m
      daddr := if carriesAddress m then BitVec.ofNat 64 (LE (s.octetsAt (s.hc + 2) (addressSize m))) else 0 } }

/-- The state after the source step of mode `m` (R186, R187). -/
def State.sourceWritten (s : State) (pic : Bool) (m : AddrMode) : State :=
  let addressStart := if carriesSourcePan pic m then s.hc + 2 else s.hc
  { s with
    hc := if carriesAddress m then addressStart + addressSize m else addressStart
    hdr := { s.hdr with
      sam := m
      spanV := carriesSourcePan pic m
      span := if carriesSourcePan pic m then BitVec.ofNat 16 (LE (s.octetsAt s.hc 2)) else 0
      saddrV := carriesAddress m
      saddr := if carriesAddress m then BitVec.ofNat 64 (LE (s.octetsAt addressStart (addressSize m))) else 0 } }

/-- The cursor moves by what the destination fields take (R105). -/
theorem State.destinationWritten_hc (s : State) (m : AddrMode) :
    (s.destinationWritten m).hc = s.hc + destinationLength m := by
  cases m <;> rfl

/-- The cursor moves by what the source fields take (R105). -/
theorem State.sourceWritten_hc (s : State) (pic : Bool) (m : AddrMode) :
    (s.sourceWritten pic m).hc = s.hc + sourceLength pic m := by
  cases m with
  | noAddress | reserved => rfl
  | short16 | long64 => cases pic <;> rfl

theorem exec_destinationRow {s : State} (hp : s.phase = .hdr) {w : BitVec 16} {m : AddrMode} (hm : (decodeWord w).dam = m)
    (fits : s.hc + destinationLength m ≤ s.flen) : exec (destinationRow w) s = .next (s.destinationWritten m) := by
  obtain ⟨noAddress, reserved, short16, long64⟩ := destinationRowsWalk s hp
  have mode : addrModeOf (wordBits w 11 10) = m := hm
  rw [destinationRow, mode]
  cases m with
  | noAddress => exact noAddress
  | reserved => exact reserved
  | short16 => exact short16 fits
  | long64 => exact long64 fits

theorem exec_sourceRow {s : State} (hp : s.phase = .hdr) {w : BitVec 16} {pic : Bool} {m : AddrMode}
    (hpic : s.hdr.pic = pic) (hm : (decodeWord w).sam = m) (fits : s.hc + sourceLength pic m ≤ s.flen) :
    exec (sourceRow w) s = .next (s.sourceWritten pic m) := by
  obtain ⟨noAddress, reserved, short16Compressed, short16, long64Compressed, long64⟩ := sourceRowsWalk s hp
  have mode : addrModeOf (wordBits w 15 14) = m := hm
  rw [sourceRow, mode]
  cases m with
  | noAddress => exact noAddress
  | reserved => exact reserved
  | short16 =>
    cases pic with
    | true => exact short16Compressed hpic fits
    | false => exact short16 hpic fits
  | long64 =>
    cases pic with
    | true => exact long64Compressed hpic fits
    | false => exact long64 hpic fits

theorem runRows_addressRows {s : State} (hp : s.phase = .hdr) {w : BitVec 16} (hpic : s.hdr.pic = (decodeWord w).pic)
    (fits : s.hc + destinationLength (decodeWord w).dam + sourceLength (decodeWord w).pic (decodeWord w).sam ≤ s.flen) :
    runRows (addressRows w) s =
      .next ((s.destinationWritten (decodeWord w).dam).sourceWritten (decodeWord w).pic (decodeWord w).sam) := by
  have destination := exec_destinationRow hp (w := w) rfl (by omega)
  have source := exec_sourceRow (s := s.destinationWritten (decodeWord w).dam) hp hpic (w := w) rfl
    (by rw [State.destinationWritten_hc]; exact fits)
  rw [addressRows, runRows_cons_of_next _ destination hp, runRows_cons_of_next _ source hp, runRows]

/-! ## The whole header step (R180, R308) -/

/-- The state when the walk reaches the addressing fields: the word's registers and the sequence number are written, and
the cursor is past them (R181, R182). -/
def State.controlWalked (s : State) (w : BitVec 16) : State :=
  { s.wordWritten w with hc := 3, hdr := { (s.wordWritten w).hdr with seq := s.fb.read 2 } }

/-- The state when the walk is done (R181 to R187). -/
def State.headerWalked (s : State) (w : BitVec 16) : State :=
  let fc := decodeWord w
  ((s.controlWalked w).destinationWritten fc.dam).sourceWritten fc.pic fc.sam

/-- The cursor ends where HeaderLen says (R190, derived from R181 to R189). -/
theorem State.headerWalked_hc (s : State) (w : BitVec 16) : (s.headerWalked w).hc = headerLen w := by
  rw [State.headerWalked, State.sourceWritten_hc, State.destinationWritten_hc]
  rfl

/-- HDRSTEP on a frame that holds its header and FCS walks the header and closes it. -/
theorem hdrStep_eq_closeHeader {s : State} (hp : s.phase = .hdr) (h2 : 2 ≤ s.flen)
    (fits : headerLen s.frameControlWord + 2 ≤ s.flen) :
    hdrStep s = .next (closeHeader (s.headerWalked s.frameControlWord)) := by
  rw [hdrStep_of_fits h2 fits]
  generalize s.frameControlWord = w at fits
  have three := three_le_headerLen w
  have sequence : readSequence (s.wordWritten w) = .next (s.controlWalked w) :=
    readSequence_of_fits (show 3 ≤ s.flen by omega)
  have inStep : (s.controlWalked w).phase = .hdr := hp
  have address : runRows (addressRows w) (s.controlWalked w) = .next (s.headerWalked w) :=
    runRows_addressRows inStep rfl (show headerLen w ≤ s.flen by omega)
  rw [runRows_controlRows hp, andThenInHeader_next (t := s.wordWritten w) hp, sequence, andThenInHeader_next inStep,
    address, andThenInHeader_next (t := s.headerWalked w) hp]

/-- Settles O23: the step is the walk and its close, whose registers are the statement's, field by field; the cursor's end
is HeaderLen. -/
theorem headerStepWritesTheHeader : Obligations.HeaderStepWritesTheHeader := by
  unfold Obligations.HeaderStepWritesTheHeader
  intro s engineNext hp h2 fits
  refine ⟨s.headerWalked_hc s.frameControlWord, ?_⟩
  rw [step_eq_engineTurn (.inl ⟨engineNext, rfl⟩), engineTurn_of_hdr hp, hdrStep_eq_closeHeader hp h2 fits]
  rfl

end Sys2Proof.Machine
end

section
/-! PROOFS. Match and the length tests (43_dispatcher.md R200 to R209): the catalog in its two orders, what each octet selects, and
the tests of a length by the kind's policy. -/

namespace Sys2Proof.Machine

/-! ## Match (R200 to R202) -/

theorem matchTag_eq_none {m : TagMap} {t : Octet} (noTag : ∀ k, t ≠ tagOf m k) (t23 : Bool) : matchTag m t23 t = none :=
  List.find?_eq_none.mpr fun k _ same => noTag k (beq_iff_eq.mp same).symm

theorem tagOf_of_matchTag {m : TagMap} {t23 : Bool} {t : Octet} {k : Kind} (h : matchTag m t23 t = some k) :
    tagOf m k = t := beq_iff_eq.mp (List.find?_some h :)

theorem selectedKind_mem_selectableKinds (t23 : Bool) : selectedKind t23 ∈ selectableKinds t23 := by
  simp [selectableKinds]

/-- Settles O8: the catalog's two orders are written out, and a selectable kind's tag selects that kind; 0x23 is the tag of
the one of its two kinds that stands first. -/
theorem matchSelectsTheCatalogEntry : Obligations.MatchSelectsTheCatalogEntry := by
  unfold Obligations.MatchSelectsTheCatalogEntry
  refine ⟨fun _ _ _ => rfl, rfl, rfl, fun m t23 t hm => ⟨?shared, ?own, fun noTag => matchTag_eq_none noTag t23⟩⟩
  case shared =>
    rintro rfl
    have selected := matchTag_tagOf hm (selectedKind_mem_selectableKinds t23)
    rwa [tagOf_selectedKind] at selected
  case own =>
    rintro k notAlmanac notService rfl
    exact matchTag_tagOf hm (mem_selectableKinds (absurd · notAlmanac) (absurd · notService))

/-! ## The length of a message (R203 to R209) -/

section LengthTests

variable {p : Params} {k : Kind} {rem : Nat} {lf : Octet}

theorem msgLen_of_fixed {N : Nat} (hk : policy k = .fixed N) :
    msgLen p k rem lf = if rem < N then .error .truncatedMessage else .ok N := by
  rw [msgLen, hk]

/-- The header test comes first (R209 (a)), and the length field is not looked at. -/
theorem msgLen_of_short_header {h lo : Nat} (hk : policy k = .variable h lo) (short : rem < h) :
    msgLen p k rem lf = .error .truncatedMessage := by
  rw [msgLen, hk]
  exact if_pos short

theorem msgLen_of_negative {h lo : Nat} (hk : policy k = .variable h lo) (header : h ≤ rem) (negative : 128 ≤ lf.toNat) :
    msgLen p k rem lf = .error .outOfRange := by
  simp only [msgLen, hk, if_neg (Nat.not_lt.mpr header), if_pos (signedOf_octet_neg lf negative)]

/-- With the header in the region and a length field that is not negative, the total decides (R209 (c)). -/
theorem msgLen_of_nonneg {h lo : Nat} (hk : policy k = .variable h lo) (header : h ≤ rem) (nonneg : lf.toNat < 128) :
    msgLen p k rem lf = if rem < h + lengthScale p k * lf.toNat then .error .truncatedMessage
      else .ok (h + lengthScale p k * lf.toNat) := by
  have notNegative : ¬ (lf.toNat : Int) < 0 := by omega
  simp only [msgLen, hk, if_neg (Nat.not_lt.mpr header), signedOf_octet_nonneg lf nonneg, if_neg notNegative,
    Int.toNat_natCast]

/-- A message that fits is accepted at its total length (R208). -/
theorem msgLen_of_fits {h lo : Nat} (hk : policy k = .variable h lo) (nonneg : lf.toNat < 128)
    (fits : h + lengthScale p k * lf.toNat ≤ rem) :
    msgLen p k rem lf = .ok (h + lengthScale p k * lf.toNat) := by
  rw [msgLen_of_nonneg hk (Nat.le_of_add_right_le fits) nonneg, if_neg (Nat.not_lt.mpr fits)]

/-- The length field decides only where a kind has one and the header is in the region (R204, R209 (a)). -/
theorem msgLen_congr {lf' : Octet} (same : ∀ h lo, policy k = .variable h lo → h ≤ rem → lf = lf') :
    msgLen p k rem lf = msgLen p k rem lf' := by
  rcases hk : policy k with N | ⟨h, lo⟩
  · rw [msgLen_of_fixed hk, msgLen_of_fixed hk]
  · rcases Nat.lt_or_ge rem h with short | header
    · rw [msgLen_of_short_header hk short, msgLen_of_short_header hk short]
    · rw [same h lo hk header]

end LengthTests

/-- Settles O27: each table lists the policies of its kinds, and the scale of the variable ones; the tests follow by
policy. -/
theorem lengthTestsInOrder : Obligations.LengthTestsInOrder := by
  unfold Obligations.LengthTestsInOrder
  intro p rem lf
  constructor
  case left =>
    intro k N hrow
    have hk : policy k = .fixed N := forall_mem_table rfl k N hrow
    rw [msgLen_of_fixed hk]
    exact ⟨fun short => if_pos short, fun fits => if_neg (Nat.not_lt.mpr fits)⟩
  case right =>
    intro k h scale hrow
    have columns : (policy k, lengthScale p k) = (Policy.variable h (h - 1), scale) :=
      forall_mem_table (f := fun k => (policy k, lengthScale p k)) (g := fun c => (Policy.variable c.1 (c.1 - 1), c.2))
        rfl k (h, scale) hrow
    obtain ⟨hk, rfl⟩ := Prod.mk.inj columns
    refine ⟨msgLen_of_short_header hk, msgLen_of_negative hk, fun header nonneg beyond => ?_, msgLen_of_fits hk⟩
    rw [msgLen_of_nonneg hk header nonneg, if_pos beyond]

end Sys2Proof.Machine
end

section
/-! PROOFS. The dispatch step (43_dispatcher.md R210 to R217, 46_frame_assembler.md R309): what a decoded row delivers, its record or
its error, the step on filler, and a region of filler only. -/

namespace Sys2Proof.Machine

/-! ## A message row completes (R210) -/

/-- A message of accepted length appends its record. That it has a length at all says that a region octet is left
(R207). -/
theorem dispatchMessage_of_len {s : State} {k : Kind} {lf : Octet} {n : Nat} (hp : s.phase = .disp)
    (hlen : msgLen s.params k s.rem lf = .ok n) (f : Fields) :
    dispatchMessage s k lf f = .next (s.afterMessage
      { kind := k, tag := tagOf s.params.tagmap k, off := s.cur, len := n, fields := f }) := by
  obtain ⟨atLeast, fits⟩ := msgLen_ok_bounds hlen
  have left : s.cur < s.rlen := by rw [State.rem] at fits; omega
  have record : makeRecord s.params k lf f s.cur (s.rlen - s.cur) = .ok _ := makeRecord_of_len hlen
  rw [dispatchMessage, if_pos ⟨hp, left⟩, record]
  rfl

/-- A message whose length raises takes that error at the tag's frame offset (R218). -/
theorem dispatchMessage_of_lengthError {s : State} {k : Kind} {lf : Octet} {e : DecodeError} (enabled : s.DispatchEnabled)
    (herr : msgLen s.params k s.rem lf = .error e) (f : Fields) :
    dispatchMessage s k lf f = .next (s.afterFault e (s.hdr.hlen + s.cur)) := by
  have noRecord : makeRecord s.params k lf f s.cur (s.rlen - s.cur) = .error e := makeRecord_of_error herr
  rw [dispatchMessage, if_pos enabled, noRecord]
  rfl

theorem exec_fixedMessage {i : Instr} {s : State} {k : Kind} {lf : Octet} {f : Fields} {N : Nat} (hp : s.phase = .disp)
    (delivers : deliver s.params i = some (k, lf, f)) (hk : policy k = .fixed N)
    (room : s.cur + N ≤ s.rlen) :
    exec i s = .next (s.afterMessage
      { kind := k, tag := tagOf s.params.tagmap k, off := s.cur, len := N, fields := f }) := by
  have fits : ¬ s.rem < N := by rw [State.rem]; omega
  have hlen : msgLen s.params k s.rem lf = .ok N := by rw [msgLen_of_fixed hk, if_neg fits]
  rw [exec_message delivers, dispatchMessage_of_len hp hlen]

theorem exec_variableMessage {i : Instr} {s : State} {k : Kind} {lf : Octet} {f : Fields} {h lo n : Nat}
    (hp : s.phase = .disp) (delivers : deliver s.params i = some (k, lf, f)) (hk : policy k = .variable h lo)
    (nonneg : lf.toNat < 128) (total : h + lengthScale s.params k * lf.toNat = n)
    (room : s.cur + n ≤ s.rlen) :
    exec i s = .next (s.afterMessage
      { kind := k, tag := tagOf s.params.tagmap k, off := s.cur, len := n, fields := f }) := by
  subst total
  have fits : h + lengthScale s.params k * lf.toNat ≤ s.rem := by rw [State.rem]; omega
  rw [exec_message delivers, dispatchMessage_of_len hp (msgLen_of_fits hk nonneg fits)]

/-- Settles O44: each row delivers its fields under its fixed policy. -/
theorem fixedMessageRowsComplete : Obligations.FixedMessageRowsComplete := by
  unfold Obligations.FixedMessageRowsComplete
  intro s hp
  refine ⟨?_, ?_, ?_, ?_, ?_, ?_, ?_, ?_⟩
  all_goals exact fun m room => exec_fixedMessage hp rfl rfl room

/-- Settles O45: each row delivers its fields under its variable policy, the length field as the number it is; the scale is 1
but for BridgeNodeBeacon. -/
theorem variableMessageRowsComplete : Obligations.VariableMessageRowsComplete := by
  unfold Obligations.VariableMessageRowsComplete
  intro s hp
  have unscaled (h n : Nat) : h + 1 * n = h + n := by rw [one_mul]
  refine ⟨fun m nonneg room => ?service, fun m nonneg room => ?fwUpdateData, fun m nonneg room => ?bridgeNodeBeacon,
    fun m nonneg room => ?iotDataDownlink, fun m nonneg room => ?iotDataUplink⟩
  all_goals rw [← signedOf_octet_nonneg _ nonneg]
  case bridgeNodeBeacon => exact exec_variableMessage hp rfl rfl nonneg rfl room
  all_goals exact exec_variableMessage hp rfl rfl nonneg (unscaled _ _) room

/-! ## The row of a matched octet (R210, R117) -/

/-- A decoded row is of its kind, and for a variable kind its length-field octet is the one at the policy's offset. -/
theorem deliver_decodeMessage (p : Params) (k : Kind) (r : List Octet) :
    ∃ lf f, deliver p (decodeMessage p k r) = some (k, lf, f) ∧
      ∀ h lo, policy k = .variable h lo → lf = fieldW r lo 1 := by
  cases k with
  | beacon | joinRequest | joinConfirmation | almanac | fwUpdateRequest | position | groupPoll | response =>
    exact ⟨_, _, rfl, fun _ _ hk => Policy.noConfusion hk⟩
  | service | fwUpdateData | bridgeNodeBeacon | iotDataDownlink | iotDataUplink =>
    refine ⟨_, _, rfl, fun _ _ hk => ?_⟩
    cases hk
    rfl

/-- The length field lies in the header portion (R114). -/
theorem lengthField_in_header {k : Kind} {h lo : Nat} (hk : policy k = .variable h lo) : lo < h := by
  cases k <;> cases hk <;> decide

theorem lengthOffset_of_variable {k : Kind} {h lo : Nat} (hk : policy k = .variable h lo) : lengthOffset k = lo := by
  rw [lengthOffset, hk]

theorem octetsAt_succ (s : State) (a n : Nat) : s.octetsAt a (n + 1) = s.fb.read a :: s.octetsAt (a + 1) n := by
  simp [State.octetsAt, List.range_succ_eq_map, Nat.add_assoc, Nat.add_comm 1]

/-- A piece of a stretch of the buffer is a stretch of the buffer. -/
theorem octetsAt_drop_take (s : State) (a : Nat) {n off w : Nat} (h : off + w ≤ n) :
    ((s.octetsAt a n).drop off).take w = s.octetsAt (a + off) w := by
  apply List.ext_getElem
  · simp [State.octetsAt]; omega
  · simp [State.octetsAt, Nat.add_assoc]

/-- A field inside the region is the word at its message offset (R72, R150). -/
theorem fieldW_region (s : State) {off w : Nat} (h : off + w ≤ s.rem) :
    fieldW (s.bufferAt 0 s.rem) off w = s.wordAt off w := by
  rw [fieldW, State.bufferAt, octetsAt_drop_take s _ h]
  rfl

theorem wordAt_one (s : State) (off : Nat) : s.wordAt off 1 = s.octetAt off := by
  simp [State.wordAt, State.octetsAt, State.octetAt]

/-- A decoded row's length is that of the octet at the length-field offset: where that octet is beyond the region, so is part
of the header, and the field is not looked at (R209 (a)). -/
theorem exec_decodeMessage (s : State) (k : Kind) : ∃ lf f,
    exec (decodeMessage s.params k (s.bufferAt 0 s.rem)) s = dispatchMessage s k lf f ∧
    msgLen s.params k s.rem lf = msgLen s.params k s.rem (s.octetAt (lengthOffset k)) := by
  obtain ⟨lf, f, delivers, hlf⟩ := deliver_decodeMessage s.params k (s.bufferAt 0 s.rem)
  refine ⟨lf, f, exec_message delivers, msgLen_congr fun h lo hk header => ?_⟩
  have inHeader := lengthField_in_header hk
  rw [hlf h lo hk, fieldW_region s (by omega), wordAt_one, lengthOffset_of_variable hk]

/-! ## The step by the octet at the cursor (R309) -/

/-- With a region octet left, the region begins with the octet at the cursor (R72). -/
theorem region_eq_cons {s : State} (left : s.cur < s.rlen) :
    s.bufferAt 0 s.rem = s.octetAt 0 :: s.octetsAt (s.hdr.hlen + s.cur + 0 + 1) (s.rem - 1) := by
  have size : s.rem = s.rem - 1 + 1 := by rw [State.rem]; omega
  rw [State.bufferAt, size, octetsAt_succ]
  rfl

theorem step_eq_dispStep {s : State} (hd : s.Dispatching) (left : s.cur < s.rlen) : step s = dispStep s := by
  obtain ⟨engineNext, hp, _⟩ := hd
  rw [step_eq_engineTurn (.inl ⟨engineNext, rfl⟩), engineTurn_of_region_left hp left]

/-- R211: the cursor moves by one, and nothing else changes. -/
theorem step_of_noMatch {s : State} (hd : s.Dispatching) (left : s.cur < s.rlen)
    (noMatch : matchTag s.params.tagmap s.cfgT23 (s.octetAt 0) = none) : step s = .next { s with cur := s.cur + 1 } := by
  have ⟨_, _, inFrame⟩ := hd
  have filler : decodeRegion s.params s.cfgT23 (s.bufferAt 0 s.rem) = .filler (s.octetAt 0) := by
    rw [region_eq_cons left]
    simp only [decodeRegion, noMatch]
  rw [step_eq_dispStep hd left]
  simp only [dispStep, fetchRegion_of_fits inFrame left, filler, State.skipFiller]

/-- R210: the row of the matched kind runs. -/
theorem step_of_match {s : State} {k : Kind} (hd : s.Dispatching) (left : s.cur < s.rlen)
    (matched : matchTag s.params.tagmap s.cfgT23 (s.octetAt 0) = some k) :
    step s = exec (decodeMessage s.params k (s.bufferAt 0 s.rem)) s := by
  have ⟨_, _, inFrame⟩ := hd
  have row : decodeRegion s.params s.cfgT23 (s.bufferAt 0 s.rem) =
      .instr (decodeMessage s.params k (s.bufferAt 0 s.rem)) := by
    rw [region_eq_cons left]
    simp only [decodeRegion, matched]
  rw [step_eq_dispStep hd left, dispStep_of_instr inFrame left row]

/-- Settles O28: filler is skipped; a match runs its row, whose length decides between its error and its record. -/
theorem dispatchStepByCase : Obligations.DispatchStepByCase := by
  unfold Obligations.DispatchStepByCase
  intro s hd left
  have ⟨_, hp, _⟩ := hd
  refine ⟨step_of_noMatch hd left, fun k e matched herr => ?lengthFails, fun k n matched hlen => ?lengthAccepted⟩
  case lengthFails =>
    obtain ⟨lf, f, row, sameLength⟩ := exec_decodeMessage s k
    rw [step_of_match hd left matched, row, dispatchMessage_of_lengthError ⟨hp, left⟩ (sameLength.trans herr)]
  case lengthAccepted =>
    obtain ⟨lf, f, row, sameLength⟩ := exec_decodeMessage s k
    refine ⟨f, ?_⟩
    rw [step_of_match hd left matched, row, dispatchMessage_of_len hp (sameLength.trans hlen), tagOf_of_matchTag matched]

/-! ## A region without tags (R217) -/

/-- A stretch of filler takes one step an octet. -/
theorem run_over_filler {s : State} (j : Nat) (hd : s.Dispatching) (inRegion : s.cur + j ≤ s.rlen)
    (filler : ∀ i, s.cur ≤ i → i < s.cur + j →
      matchTag s.params.tagmap s.cfgT23 (s.fb.read (s.hdr.hlen + i)) = none) :
    State.run j s = .next { s with cur := s.cur + j } := by
  induction j generalizing s with
  | zero => rfl
  | succ j ih =>
    have first : step s = .next { s with cur := s.cur + 1 } :=
      step_of_noMatch hd (by omega) (filler s.cur le_rfl (by omega))
    have rest : State.run j { s with cur := s.cur + 1 } = .next { s with cur := s.cur + 1 + j } :=
      ih hd (show s.cur + 1 + j ≤ s.rlen by omega)
        fun i atLeast (below : i < s.cur + 1 + j) => filler i (Nat.le_of_succ_le atLeast) (by omega)
    simp only [State.run, first, rest, Nat.add_assoc, Nat.add_comm 1]

theorem dispatchFrom_of_filler (p : Params) (t23 : Bool) (fuel i : Nat) {r : List Octet}
    (filler : ∀ o ∈ r, matchTag p.tagmap t23 o = none) : dispatchFrom p t23 fuel i r = .ok [] := by
  induction fuel generalizing i r with
  | zero => rfl
  | succ fuel ih =>
    cases r with
    | nil => rfl
    | cons o r =>
      obtain ⟨first, rest⟩ := List.forall_mem_cons.mp filler
      simpa only [dispatchFrom, decodeRegion, first, List.drop_succ_cons, List.drop_zero] using ih (i + 1) rest

/-- Settles O30: the engine's steps and the loop of Dispatch both pass filler one octet at a time. -/
theorem regionWithoutTagsYieldsNothing : Obligations.RegionWithoutTagsYieldsNothing := by
  unfold Obligations.RegionWithoutTagsYieldsNothing
  refine ⟨fun s hd atStart _ filler j hj => ?_, fun p t23 rg filler => dispatchFrom_of_filler p t23 rg.length 0 filler⟩
  have run := run_over_filler j hd (by omega) fun i _ below => filler i (by omega)
  rwa [atStart, Nat.zero_add] at run

end Sys2Proof.Machine
end

section
/-! PROOFS. The frame of a row (43_dispatcher.md R210, 42_mac_header.md R180, 60_exceptions.md R331): a row that answers a next state
has taken fault entry, or changed the header registers and the header cursor only, or appended one record. -/

namespace Sys2Proof.Machine

/-- A row with a kind delivers a message of that kind. -/
theorem deliver_of_kind? {i : Instr} {k : Kind} (hk : i.kind? = some k) (p : Params) :
    ∃ lf f, deliver p i = some (k, lf, f) := by
  cases i with
  | beacon | joinRequest | joinConfirmation | almanac | service | fwUpdateRequest | fwUpdateData | position | groupPoll
  | response | bridgeNodeBeacon | iotDataDownlink | iotDataUplink =>
    obtain rfl := Option.some.inj hk
    exact ⟨_, _, rfl⟩
  | _ => cases hk

/-- Everything a row can do where it answers a next state. -/
theorem exec_next_cases {i : Instr} {s t : State} (h : exec i s = .next t) :
    (∃ e pos, t = s.faultEntry e pos) ∨ (i.kind? = none ∧ SameButHeader s t) ∨
    (i.kind? ≠ none ∧ ∃ r, t = s.appendRecord r) := by
  cases hk : i.kind? with
  | none =>
    by_cases hp : s.phase = .hdr
    · rcases exec_row_cases hk hp with ⟨u, answer, same⟩ | ⟨pos, answer⟩
      · obtain rfl : u = t := Host.Outcome.next.inj (answer.symm.trans h)
        exact .inr (.inl ⟨rfl, same⟩)
      · exact .inl ⟨_, pos, (Host.Outcome.next.inj (answer.symm.trans h)).symm⟩
    · cases (exec_row_outside hk hp).symm.trans h
  | some k =>
    obtain ⟨lf, f, delivers⟩ := deliver_of_kind? hk s.params
    rw [exec_message delivers] at h
    rcases dispatchMessage_cases s k lf f with ⟨_, stops⟩ | ⟨_, _, e, _, answer⟩ | ⟨_, _, n, _, answer⟩
    · cases stops.symm.trans h
    · exact .inl ⟨e, _, (Host.Outcome.next.inj (answer.symm.trans h)).symm⟩
    · exact .inr (.inr ⟨Option.some_ne_none k, _, (Host.Outcome.next.inj (answer.symm.trans h)).symm⟩)

/-- Settles O46: fault entry, a header write and an appended record each leave what the statement says. -/
theorem rowsLeaveTheRestUnchanged : Obligations.RowsLeaveTheRestUnchanged := by
  unfold Obligations.RowsLeaveTheRestUnchanged
  intro i s t h
  rcases exec_next_cases h with ⟨e, pos, rfl⟩ | ⟨hk, same⟩ | ⟨hk, r, rfl⟩
  · exact ⟨fun _ => rfl, rfl, rfl, rfl, rfl, fun noFault => absurd rfl noFault⟩
  · obtain ⟨params, hostTurns, cfgT23, fb, flen, phase, cur, rlen, msgq, fcs0, fcs1, errKind, errPos⟩ := same
    exact ⟨fun _ => by rw [fb], flen, cfgT23, params, hostTurns, fun _ =>
      ⟨phase, rlen, fcs0, fcs1, errKind, errPos, fun _ => ⟨cur, msgq⟩, fun message => absurd hk message⟩⟩
  · exact ⟨fun _ => rfl, rfl, rfl, rfl, rfl, fun _ =>
      ⟨rfl, rfl, rfl, rfl, rfl, rfl, fun noMessage => absurd noMessage hk, fun _ => ⟨rfl, rfl, r, rfl, rfl⟩⟩⟩

end Sys2Proof.Machine
end

section
/-! PROOFS. The octets of a decoded message (30_encoding.md R117, 43_dispatcher.md R203, 44_messages_fixed.md R230): the
fields of a kind lie end to end from the tag to the message's total length, so that rendering each field's word in turn
gives the message's own octets back. -/

namespace Sys2Proof.Machine

/-! ## Fields end to end -/

theorem littleOctets_fieldW_zero (r : List Octet) {w : Nat} (h : w ≤ r.length) :
    littleOctets w (fieldW r 0 w).toNat = r.take w := by
  rw [littleOctets_fieldW r 0 w (by omega), List.drop_zero]

/-- A rendered field goes on where the octets before it end (R117). -/
theorem take_append_littleOctets_fieldW (r : List Octet) {off w : Nat} (h : off + w ≤ r.length) :
    r.take off ++ littleOctets w (fieldW r off w).toNat = r.take (off + w) := by
  rw [littleOctets_fieldW r off w h, List.take_add]

/-- A trailing buffer goes on where the header portion ends (R262). -/
theorem take_append_trailingBuffer (r : List Octet) (off scale : Nat) {lf : Octet} (nonneg : lf.toNat < 128) :
    r.take off ++ trailingBuffer r off scale lf = r.take (off + scale * lf.toNat) := by
  rw [trailingBuffer, signedOf_octet_nonneg lf nonneg, Int.toNat_natCast, fieldBuf, List.take_add]

theorem cons_take_append_trailingBuffer (o : Octet) (r : List Octet) (off scale : Nat) {lf : Octet}
    (nonneg : lf.toNat < 128) :
    o :: (r.take off ++ trailingBuffer r off scale lf) = (o :: r).take (off + 1 + scale * lf.toNat) := by
  rw [take_append_trailingBuffer r off scale nonneg, Nat.add_right_comm, List.take_succ_cons]

/-- A one-octet field reads the octet at its offset; beyond the sequence both read 0. -/
theorem fieldW_one (r : List Octet) (off : Nat) : fieldW r off 1 = r.getD off 0 := by
  induction r generalizing off with
  | nil => simp [fieldW]
  | cons o r ih =>
    cases off with
    | zero => simp [fieldW]
    | succ off => rw [fieldW_cons, ih, List.getD_cons_succ]

/-! ## What a decode and an accepted length say -/

theorem kind?_decodeMessage (p : Params) (k : Kind) (r : List Octet) : (decodeMessage p k r).kind? = some k := by
  cases k <;> rfl

/-- A region that decodes to a row begins with the tag of the row's kind (R202, R210). -/
theorem decodeRegion_eq_instr {p : Params} {t23 : Bool} {r : List Octet} {i : Instr} {k : Kind}
    (decoded : decodeRegion p t23 r = .instr i) (hk : i.kind? = some k) :
    ∃ body, r = tagOf p.tagmap k :: body ∧ i = decodeMessage p k r := by
  cases r with
  | nil => cases decoded
  | cons t body =>
    rw [decodeRegion] at decoded
    split at decoded
    next => cases decoded
    next j matched =>
      obtain rfl := Decoded.instr.inj decoded
      obtain rfl : j = k := Option.some.inj ((kind?_decodeMessage p j _).symm.trans hk)
      exact ⟨body, by rw [tagOf_of_matchTag matched], rfl⟩

theorem msgLen_ok_of_fixed {p : Params} {k : Kind} {rem N n : Nat} {lf : Octet} (hk : policy k = .fixed N)
    (accepted : msgLen p k rem lf = .ok n) : n = N ∧ N ≤ rem := by
  rw [msgLen_of_fixed hk] at accepted
  split at accepted
  next => cases accepted
  next fits => exact ⟨(Except.ok.inj accepted).symm, Nat.le_of_not_lt fits⟩

/-- An accepted length of a variable kind is its header portion and the octets its non-negative length field announces, all
in the region (R203, R209). -/
theorem msgLen_ok_of_variable {p : Params} {k : Kind} {rem h lo n : Nat} {lf : Octet} (hk : policy k = .variable h lo)
    (accepted : msgLen p k rem lf = .ok n) :
    lf.toNat < 128 ∧ n = h + lengthScale p k * lf.toNat ∧ h + lengthScale p k * lf.toNat ≤ rem := by
  rcases Nat.lt_or_ge rem h with short | header
  · rw [msgLen_of_short_header hk short] at accepted
    cases accepted
  rcases Nat.lt_or_ge lf.toNat 128 with nonneg | negative
  · rw [msgLen_of_nonneg hk header nonneg] at accepted
    split at accepted
    next => cases accepted
    next fits => exact ⟨nonneg, (Except.ok.inj accepted).symm, Nat.le_of_not_lt fits⟩
  · rw [msgLen_of_negative hk header negative] at accepted
    cases accepted

/-! ## Encoding a decoded message -/

theorem encode_decodeMessage_of_fixed (p : Params) {k : Kind} {N : Nat} (hk : policy k = .fixed N) {body : List Octet}
    (fits : N ≤ body.length + 1) :
    encode p (decodeMessage p k (tagOf p.tagmap k :: body)) = (tagOf p.tagmap k :: body).take N := by
  cases k with
  | beacon | joinRequest | joinConfirmation | almanac | fwUpdateRequest | position | groupPoll | response =>
    obtain rfl := Policy.fixed.inj hk
    simp (disch := omega) only [decodeMessage, encode, decodeBeacon, decodeJoinRequest, decodeJoinConfirmation,
      decodeAlmanac, decodeFwUpdateRequest, decodePosition, decodeGroupPoll, decodeResponse, fieldFlags, fieldF,
      fieldW_cons, littleOctets_fieldW_zero, take_append_littleOctets_fieldW, List.take_succ_cons]
  | _ => cases hk

theorem encode_decodeMessage_of_variable (p : Params) {k : Kind} {h lo : Nat} (hk : policy k = .variable h lo)
    {body : List Octet} (header : h ≤ body.length + 1)
    (nonneg : (fieldW (tagOf p.tagmap k :: body) lo 1).toNat < 128) :
    encode p (decodeMessage p k (tagOf p.tagmap k :: body)) = (tagOf p.tagmap k :: body).take
      (h + lengthScale p k * (fieldW (tagOf p.tagmap k :: body) lo 1).toNat) := by
  cases k with
  | service | fwUpdateData | bridgeNodeBeacon | iotDataDownlink | iotDataUplink =>
    obtain ⟨rfl, rfl⟩ := Policy.variable.inj hk
    simp (disch := omega) only [decodeMessage, encode, decodeService, decodeFwUpdateData, decodeBridgeNodeBeacon,
      decodeIotData, fieldFlags, fieldW_cons, trailingBuffer_cons, littleOctets_fieldW_zero,
      take_append_littleOctets_fieldW]
    exact cons_take_append_trailingBuffer _ _ _ _ nonneg
  | _ => cases hk

theorem wellFormed_decodeMessage_of_fixed (p : Params) {k : Kind} {N : Nat} (hk : policy k = .fixed N) (r : List Octet) :
    WellFormed p (decodeMessage p k r) = true := by
  cases k with
  | beacon | joinRequest | joinConfirmation | almanac | fwUpdateRequest | position | groupPoll | response => rfl
  | _ => cases hk

/-- The buffer that is read is as long as the length field announces where that much is there (R118, R262). -/
theorem trailingPartOk_trailingBuffer {r : List Octet} {h scale : Nat} {lf : Octet} (nonneg : lf.toNat < 128)
    (fits : h + scale * lf.toNat ≤ r.length) : trailingPartOk scale lf (trailingBuffer r h scale lf) = true := by
  refine (trailingPartOk_iff ..).mpr ⟨nonneg, ?_⟩
  rw [trailingBuffer, signedOf_octet_nonneg lf nonneg, Int.toNat_natCast, fieldBuf, List.length_take, List.length_drop]
  omega

theorem wellFormed_decodeMessage_of_variable (p : Params) {k : Kind} {h lo : Nat} (hk : policy k = .variable h lo)
    {r : List Octet} (nonneg : (fieldW r lo 1).toNat < 128)
    (fits : h + lengthScale p k * (fieldW r lo 1).toNat ≤ r.length) :
    WellFormed p (decodeMessage p k r) = true := by
  cases k with
  | service | fwUpdateData | bridgeNodeBeacon | iotDataDownlink | iotDataUplink =>
    obtain ⟨rfl, rfl⟩ := Policy.variable.inj hk
    exact trailingPartOk_trailingBuffer nonneg fits
  | _ => cases hk

/-- Settles O5: the region begins with the kind's tag, and the accepted length, by the kind's policy, is where its fields
end. -/
theorem encodeOfDecodedMessage : Obligations.EncodeOfDecodedMessage := by
  unfold Obligations.EncodeOfDecodedMessage
  intro p t23 r i k n decoded kind accepted
  obtain ⟨body, rfl, rfl⟩ := decodeRegion_eq_instr decoded kind
  rcases hk : policy k with N | ⟨h, lo⟩
  · obtain ⟨rfl, fits⟩ := msgLen_ok_of_fixed hk accepted
    exact ⟨wellFormed_decodeMessage_of_fixed p hk _, encode_decodeMessage_of_fixed p hk fits⟩
  · rw [lengthOffset_of_variable hk, ← fieldW_one] at accepted
    obtain ⟨nonneg, rfl, fits⟩ := msgLen_ok_of_variable hk accepted
    exact ⟨wellFormed_decodeMessage_of_variable p hk nonneg fits,
      encode_decodeMessage_of_variable p hk (Nat.le_of_add_right_le fits) nonneg⟩

end Sys2Proof.Machine
end

section
/-! PROOFS. The fixed-length messages (44_messages_fixed.md R230 to R239): a kind's tag selects it, its total length is its
policy's number, and each of its fields is the word at the field's message offset. -/

namespace Sys2Proof.Machine

/-! ## The kind at the cursor (R202) -/

/-- The octet 0x23 selects the kind that stands first under `CFG.T23`. -/
theorem matchTag_sharedTag {m : TagMap} (hm : m.wf) (t23 : Bool) : matchTag m t23 0x23#8 = some (selectedKind t23) := by
  have selected := matchTag_tagOf hm (selectedKind_mem_selectableKinds t23)
  rwa [tagOf_selectedKind] at selected

/-- The tag of any kind but the two of 0x23 selects that kind under either setting of `CFG.T23`. -/
theorem matchTag_ownTag {m : TagMap} {t : Octet} {k : Kind} (hm : m.wf) (t23 : Bool) (tag : t = tagOf m k)
    (notAlmanac : k ≠ .almanac) (notService : k ≠ .service) : matchTag m t23 t = some k := by
  rw [tag]
  exact matchTag_tagOf hm (mem_selectableKinds (absurd · notAlmanac) (absurd · notService))

/-! ## The step on a fixed message (R204, R210) -/

/-- A fixed message is at least a tag and two octets long (R207). -/
theorem three_le_of_fixed {k : Kind} {N : Nat} (hk : policy k = .fixed N) : 3 ≤ N := by
  have accepted : msgLen Params.reference k N 0 = .ok N := by rw [msgLen_of_fixed hk, if_neg (Nat.lt_irrefl N)]
  exact (msgLen_ok_bounds accepted).1

/-- A fixed message that fits the region appends the record of what its row delivers, under the octet at the cursor. -/
theorem step_of_fixedMessage {s : State} {k : Kind} {lf : Octet} {f : Fields} {N : Nat} (hd : s.Dispatching)
    (matched : matchTag s.params.tagmap s.cfgT23 (s.octetAt 0) = some k) (hk : policy k = .fixed N)
    (room : s.cur + N ≤ s.rlen)
    (delivers : deliver s.params (decodeMessage s.params k (s.bufferAt 0 s.rem)) = some (k, lf, f)) :
    step s = .next (s.afterMessage { kind := k, tag := s.octetAt 0, off := s.cur, len := N, fields := f }) := by
  have ⟨_, hp, _⟩ := hd
  have positive := three_le_of_fixed hk
  rw [step_of_match hd (by omega) matched, exec_fixedMessage hp delivers hk room, tagOf_of_matchTag matched]

/-- A field of a message that fits the region lies in the region (R72, R150). -/
theorem fieldW_of_room {s : State} {off w : Nat} (room : s.cur + (off + w) ≤ s.rlen) :
    fieldW (s.bufferAt 0 s.rem) off w = s.wordAt off w :=
  fieldW_region s (Nat.le_sub_of_add_le' room)

/-! ## The eight fixed messages -/

/-- Settles O31: Beacon stands first in the catalog, so no tag map is asked for; its fields end at offset 23. -/
theorem beaconStepDeliversItsRecord : Obligations.BeaconStepDeliversItsRecord := by
  unfold Obligations.BeaconStepDeliversItsRecord
  intro s hd tag room
  have matched : matchTag s.params.tagmap s.cfgT23 (s.octetAt 0) = some .beacon := by rw [tag]; rfl
  rw [step_of_fixedMessage hd matched rfl room rfl, tag]
  simp (disch := omega) only [decodeBeacon, fieldFlags, fieldW_of_room]

/-- Settles O32: the tag selects JoinRequest, whose fields end at offset 18. -/
theorem joinRequestStepDeliversItsRecord : Obligations.JoinRequestStepDeliversItsRecord := by
  unfold Obligations.JoinRequestStepDeliversItsRecord
  refine ⟨rfl, fun s hd hm tag room => ?_⟩
  have matched := matchTag_ownTag (k := .joinRequest) hm s.cfgT23 tag nofun nofun
  rw [step_of_fixedMessage hd matched rfl room rfl]
  simp (disch := omega) only [decodeJoinRequest, fieldFlags, fieldW_of_room]

/-- Settles O33: the tag selects JoinConfirmation, whose fields end at offset 5. -/
theorem joinConfirmationStepDeliversItsRecord : Obligations.JoinConfirmationStepDeliversItsRecord := by
  unfold Obligations.JoinConfirmationStepDeliversItsRecord
  refine ⟨rfl, fun s hd hm tag room => ?_⟩
  have matched := matchTag_ownTag (k := .joinConfirmation) hm s.cfgT23 tag nofun nofun
  rw [step_of_fixedMessage hd matched rfl room rfl]
  simp (disch := omega) only [decodeJoinConfirmation, fieldW_of_room]

/-- Settles O34: under `CFG.T23 = 0` the octet 0x23 selects Almanac, which is delivered where its 47 octets are there and
raises where they are not; under `CFG.T23 = 1` it selects Service. -/
theorem almanacStepDeliversItsRecord : Obligations.AlmanacStepDeliversItsRecord := by
  unfold Obligations.AlmanacStepDeliversItsRecord
  intro s hd hm tag
  have selected : matchTag s.params.tagmap s.cfgT23 (s.octetAt 0) = some (selectedKind s.cfgT23) :=
    tag ▸ matchTag_sharedTag hm s.cfgT23
  have selectsAlmanac (t23 : s.cfgT23 = false) : matchTag s.params.tagmap s.cfgT23 (s.octetAt 0) = some .almanac := by
    rw [selected, t23]
    rfl
  refine ⟨fun t23 room => ?delivered, fun t23 left short => ?truncated, fun t23 => ?service⟩
  case delivered =>
    rw [step_of_fixedMessage hd (selectsAlmanac t23) rfl room rfl, tag]
    simp (disch := omega) only [decodeAlmanac, fieldFlags, fieldW_of_room]
  case truncated =>
    have below : s.rem < 47 := Nat.sub_lt_left_of_lt_add left.le short
    obtain ⟨_, lengthRaises, _⟩ := dispatchStepByCase s hd left
    exact lengthRaises .almanac .truncatedMessage (selectsAlmanac t23) ((msgLen_of_fixed rfl).trans (if_pos below))
  case service => rw [selected, t23]; rfl

/-- Settles O35: the tag selects FwUpdateRequest, whose fields end at offset 24; the period is delivered as signed. -/
theorem fwUpdateRequestStepDeliversItsRecord : Obligations.FwUpdateRequestStepDeliversItsRecord := by
  unfold Obligations.FwUpdateRequestStepDeliversItsRecord
  refine ⟨rfl, fun s hd hm tag room => ?_⟩
  have matched := matchTag_ownTag (k := .fwUpdateRequest) hm s.cfgT23 tag nofun nofun
  rw [step_of_fixedMessage hd matched rfl room rfl]
  simp (disch := omega) only [decodeFwUpdateRequest, deliverFwUpdateRequest, fieldW_of_room]

/-- Settles O36: the tag selects Position, whose fields end at offset 17; a pattern is the word as it stands. -/
theorem positionStepDeliversItsRecord : Obligations.PositionStepDeliversItsRecord := by
  unfold Obligations.PositionStepDeliversItsRecord
  refine ⟨rfl, fun s hd hm tag room => ?_⟩
  have matched := matchTag_ownTag (k := .position) hm s.cfgT23 tag nofun nofun
  rw [step_of_fixedMessage hd matched rfl room rfl]
  simp (disch := omega) only [decodePosition, fieldF, fieldW_of_room]

/-- Settles O37: the tag selects GroupPoll, whose fields end at offset 29; the octet at offset 14 is delivered whole and in
its two parts. -/
theorem groupPollStepDeliversItsRecord : Obligations.GroupPollStepDeliversItsRecord := by
  unfold Obligations.GroupPollStepDeliversItsRecord
  refine ⟨rfl, fun s hd hm tag room => ?_⟩
  have matched := matchTag_ownTag (k := .groupPoll) hm s.cfgT23 tag nofun nofun
  rw [step_of_fixedMessage hd matched rfl room rfl]
  simp (disch := omega) only [decodeGroupPoll, deliverGroupPoll, fieldFlags, fieldF, fieldW_of_room, wordAt_one]

/-- Settles O38: the tag selects Response, whose fields end at offset 22. -/
theorem responseStepDeliversItsRecord : Obligations.ResponseStepDeliversItsRecord := by
  unfold Obligations.ResponseStepDeliversItsRecord
  refine ⟨rfl, fun s hd hm tag room => ?_⟩
  have matched := matchTag_ownTag (k := .response) hm s.cfgT23 tag nofun nofun
  rw [step_of_fixedMessage hd matched rfl room rfl]
  simp (disch := omega) only [decodeResponse, fieldFlags, fieldW_of_room]

/-! ## SplitSQ (R238) -/

/-- The stationary flag is the octet's top bit. -/
theorem splitSQ_flag (mode : QfMode) (sq : Octet) : (splitSQ mode sq).1 = decide (128 ≤ sq.toNat) := by
  have topBit : sq.getLsbD 7 = true ↔ 128 ≤ sq.toNat := by
    have := sq.isLt
    rw [getLsbD_iff_div]
    omega
  rw [Bool.eq_iff_iff, decide_eq_true_iff]
  exact topBit

theorem splitSQ_fullOctet (sq : Octet) : (splitSQ .fullOctet sq).2 = sq.toNat := rfl

theorem splitSQ_masked7 (sq : Octet) : (splitSQ .masked7 sq).2 = sq.toNat % 128 :=
  (wordBits_toNat sq 6 0).trans (by norm_num)

/-- Settles O16: the flag is the top bit in either mode, and the octet is its own low seven bits exactly below 128. -/
theorem qualityFactorUnderEachMode : Obligations.QualityFactorUnderEachMode := by
  unfold Obligations.QualityFactorUnderEachMode
  intro sq
  refine ⟨Prod.ext (splitSQ_flag .fullOctet sq) (splitSQ_fullOctet sq),
    Prod.ext (splitSQ_flag .masked7 sq) (splitSQ_masked7 sq), ?_⟩
  rw [splitSQ_fullOctet, splitSQ_masked7, eq_comm]
  exact Nat.mod_eq_iff_lt (by norm_num)

/-! ## The spec's examples -/

/-- Settles O3: the four regions and the word are closed, and the decoders evaluate on them. -/
theorem writtenOutWordsDecode : Obligations.WrittenOutWordsDecode := by
  unfold Obligations.WrittenOutWordsDecode
  exact ⟨by decide, by decide, by decide, by decide, by decide⟩

end Sys2Proof.Machine
end

section
/-! PROOFS. The variable-length messages (45_messages_variable.md R260 to R269): the octet at a kind's length-field offset decides
between its record and its two errors; the trailing buffer is the stretch after the header portion; and the address view of
such a buffer. -/

namespace Sys2Proof.Machine

/-! ## The step on a variable message (R203, R209, R210) -/

/-- Only BridgeNodeBeacon scales its length field (R203). -/
theorem lengthScale_eq_one (p : Params) {k : Kind} (notBridge : k ≠ .bridgeNodeBeacon) : lengthScale p k = 1 := by
  cases k with
  | bridgeNodeBeacon => exact absurd rfl notBridge
  | _ => rfl

theorem unscaled_total {k : Kind} (notBridge : k ≠ .bridgeNodeBeacon) (p : Params) (h n : Nat) :
    h + lengthScale p k * n = h + n := by rw [lengthScale_eq_one p notBridge, one_mul]

section

variable {s : State} {k : Kind} {h lo : Nat}

/-- A variable message that fits the region appends the record of what its row delivers, under the octet at the cursor. -/
theorem step_of_variableMessage {f : Fields} {n : Nat} (hd : s.Dispatching)
    (matched : matchTag s.params.tagmap s.cfgT23 (s.octetAt 0) = some k) (hk : policy k = .variable h lo)
    (nonneg : (s.octetAt lo).toNat < 128) (total : h + lengthScale s.params k * (s.octetAt lo).toNat = n)
    (room : s.cur + n ≤ s.rlen)
    (delivers : deliver s.params (decodeMessage s.params k (s.bufferAt 0 s.rem)) =
      some (k, fieldW (s.bufferAt 0 s.rem) lo 1, f)) :
    step s = .next (s.afterMessage { kind := k, tag := s.octetAt 0, off := s.cur, len := n, fields := f }) := by
  have ⟨_, hp, _⟩ := hd
  have inHeader := lengthField_in_header hk
  rw [fieldW_of_room (by omega), wordAt_one] at delivers
  rw [step_of_match hd (by omega) matched, exec_variableMessage hp delivers hk nonneg total room,
    tagOf_of_matchTag matched]

/-- With the header portion in the region, a length octet of 0x80 or above raises at the tag (R209 (b), R218). -/
theorem step_of_negativeLength (hd : s.Dispatching)
    (matched : matchTag s.params.tagmap s.cfgT23 (s.octetAt 0) = some k) (hk : policy k = .variable h lo)
    (header : s.cur + h ≤ s.rlen) (negative : 128 ≤ (s.octetAt lo).toNat) :
    step s = .next (s.afterFault .outOfRange (s.hdr.hlen + s.cur)) := by
  have inHeader := lengthField_in_header hk
  obtain ⟨_, lengthRaises, _⟩ := dispatchStepByCase s hd (by omega)
  refine lengthRaises k .outOfRange matched (msgLen_of_negative hk (Nat.le_sub_of_add_le' header) ?_)
  rwa [lengthOffset_of_variable hk]

/-- A message that its length octet takes past the region raises at the tag (R209 (c), R218). -/
theorem step_of_truncatedBuffer (hd : s.Dispatching)
    (matched : matchTag s.params.tagmap s.cfgT23 (s.octetAt 0) = some k) (hk : policy k = .variable h lo)
    (header : s.cur + h ≤ s.rlen) (nonneg : (s.octetAt lo).toNat < 128)
    (beyond : s.rlen < s.cur + (h + lengthScale s.params k * (s.octetAt lo).toNat)) :
    step s = .next (s.afterFault .truncatedMessage (s.hdr.hlen + s.cur)) := by
  have inHeader := lengthField_in_header hk
  have left : s.cur < s.rlen := by omega
  obtain ⟨_, lengthRaises, _⟩ := dispatchStepByCase s hd left
  have short : s.rem < h + lengthScale s.params k * (s.octetAt lo).toNat := Nat.sub_lt_left_of_lt_add left.le beyond
  refine lengthRaises k .truncatedMessage matched ?_
  rw [lengthOffset_of_variable hk]
  exact (msgLen_of_nonneg hk (Nat.le_sub_of_add_le' header) nonneg).trans (if_pos short)

/-- The trailing buffer of a message that fits the region is the stretch from its message offset (R72, R262). -/
theorem trailingBuffer_of_room {lf : Octet} {scale : Nat} (nonneg : lf.toNat < 128)
    (room : s.cur + (h + scale * lf.toNat) ≤ s.rlen) :
    trailingBuffer (s.bufferAt 0 s.rem) h scale lf = s.bufferAt h (scale * lf.toNat) := by
  rw [trailingBuffer, signedOf_octet_nonneg lf nonneg, Int.toNat_natCast, fieldBuf]
  exact octetsAt_drop_take s _ (Nat.le_sub_of_add_le' room)

end

/-! ## The five variable messages -/

/-- Settles O39: under `CFG.T23 = 1` the octet 0x23 selects Service, whose length octet at offset 2 decides between its
record and `OutOfRange`; under `CFG.T23 = 0` it selects Almanac. -/
theorem serviceStepDeliversItsRecord : Obligations.ServiceStepDeliversItsRecord := by
  unfold Obligations.ServiceStepDeliversItsRecord
  intro s hd hm tag header
  have selected : matchTag s.params.tagmap s.cfgT23 (s.octetAt 0) = some (selectedKind s.cfgT23) :=
    tag ▸ matchTag_sharedTag hm s.cfgT23
  have selectsService (t23 : s.cfgT23 = true) : matchTag s.params.tagmap s.cfgT23 (s.octetAt 0) = some .service := by
    rw [selected, t23]
    rfl
  refine ⟨fun t23 nonneg room => ?delivered, fun t23 negative => ?outOfRange, fun t23 => ?almanac⟩
  case delivered =>
    rw [step_of_variableMessage hd (selectsService t23) rfl nonneg (unscaled_total (k := .service) nofun _ _ _) room rfl, tag]
    simp (disch := omega) only [decodeService, deliverService, fieldW_of_room, wordAt_one, trailingBuffer_of_room,
      signedOf_octet_nonneg, one_mul]
  case outOfRange => exact step_of_negativeLength hd (selectsService t23) rfl header negative
  case almanac => rw [selected, t23]; rfl

/-- Settles O40: the tag selects FwUpdateData, whose length octet is at offset 7 and whose buffer begins at offset 8. -/
theorem fwUpdateDataStepDeliversItsRecord : Obligations.FwUpdateDataStepDeliversItsRecord := by
  unfold Obligations.FwUpdateDataStepDeliversItsRecord
  refine ⟨rfl, fun s hd hm tag nonneg room => ?_⟩
  have matched := matchTag_ownTag (k := .fwUpdateData) hm s.cfgT23 tag nofun nofun
  rw [step_of_variableMessage hd matched rfl nonneg (unscaled_total (k := .fwUpdateData) nofun _ _ _) room rfl]
  simp (disch := omega) only [decodeFwUpdateData, deliverFwUpdateData, fieldW_of_room, wordAt_one,
    trailingBuffer_of_room, signedOf_octet_nonneg, one_mul]

/-- Settles O41: the tag selects BridgeNodeBeacon, whose length octet is at offset 9 and counts in units of BNB_SCALE. -/
theorem bridgeNodeBeaconStepDeliversItsRecord : Obligations.BridgeNodeBeaconStepDeliversItsRecord := by
  unfold Obligations.BridgeNodeBeaconStepDeliversItsRecord
  refine ⟨rfl, fun s hd hm tag nonneg room => ?_⟩
  have matched := matchTag_ownTag (k := .bridgeNodeBeacon) hm s.cfgT23 tag nofun nofun
  rw [step_of_variableMessage hd matched rfl nonneg rfl room rfl]
  simp (disch := omega) only [decodeBridgeNodeBeacon, deliverBridgeNodeBeacon, fieldFlags, fieldW_of_room, wordAt_one,
    trailingBuffer_of_room, signedOf_octet_nonneg, lengthScale]

/-- The two IoT kinds deliver one layout: the length octet is at offset 6 and the payload begins at offset 7
(R268, R269). -/
theorem deliverIotData_of_room {s : State} (nonneg : (s.octetAt 6).toNat < 128)
    (room : s.cur + (7 + (s.octetAt 6).toNat) ≤ s.rlen) :
    deliverIotData (decodeIotData (s.bufferAt 0 s.rem)) =
      { id := s.wordAt 1 2, flags := s.wordAt 3 1, updateRate := s.wordAt 4 2, dataLength := (s.octetAt 6).toNat,
        iotPayload := s.bufferAt 7 (s.octetAt 6).toNat } := by
  simp (disch := omega) only [decodeIotData, deliverIotData, fieldFlags, fieldW_of_room, wordAt_one,
    trailingBuffer_of_room, signedOf_octet_nonneg, one_mul]

/-- Settles O42: the tag selects IotDataDownlink, which delivers the IoT layout. -/
theorem iotDataDownlinkStepDeliversItsRecord : Obligations.IotDataDownlinkStepDeliversItsRecord := by
  unfold Obligations.IotDataDownlinkStepDeliversItsRecord
  refine ⟨rfl, fun s hd hm tag nonneg room => ?_⟩
  have matched := matchTag_ownTag (k := .iotDataDownlink) hm s.cfgT23 tag nofun nofun
  rw [step_of_variableMessage hd matched rfl nonneg (unscaled_total (k := .iotDataDownlink) nofun _ _ _) room rfl,
    deliverIotData_of_room nonneg room]

/-- Settles O43: the tag selects IotDataUplink, which delivers the IoT layout where the message fits; its length octet
raises `OutOfRange` where it is negative and `TruncatedMessage` where it passes the region. -/
theorem iotDataUplinkStepDeliversItsRecord : Obligations.IotDataUplinkStepDeliversItsRecord := by
  unfold Obligations.IotDataUplinkStepDeliversItsRecord
  refine ⟨rfl, fun s hd hm tag header => ?_⟩
  have matched := matchTag_ownTag (k := .iotDataUplink) hm s.cfgT23 tag nofun nofun
  have total := unscaled_total (k := .iotDataUplink) nofun s.params 7 (s.octetAt 6).toNat
  refine ⟨fun nonneg room => ?delivered, fun negative => ?outOfRange, fun nonneg beyond => ?truncated⟩
  case delivered =>
    rw [step_of_variableMessage hd matched rfl nonneg total room rfl, deliverIotData_of_room nonneg room]
  case outOfRange => exact step_of_negativeLength hd matched rfl header negative
  case truncated => exact step_of_truncatedBuffer hd matched rfl header nonneg (total ▸ beyond)

/-! ## TagAddrView (R267) -/

/-- A pair of octets is one address more. -/
theorem cons_cons_length_div_two (a b : Octet) (rest : List Octet) :
    (a :: b :: rest).length / 2 = rest.length / 2 + 1 := Nat.add_div_right _ Nat.two_pos

theorem tagAddressList_length (B : List Octet) : (tagAddressList B).length = B.length / 2 := by
  induction B using List.twoStepInduction with
  | nil | singleton => simp [tagAddressList]
  | cons_cons a b rest ih => rw [tagAddressList, List.length_cons, ih, cons_cons_length_div_two]

/-- The address at index `j` is the little-endian word of the pair of octets at `2 * j`. -/
theorem tagAddressList_getElem? {B : List Octet} {j : Nat} (inside : j < B.length / 2) :
    (tagAddressList B)[j]? =
      some (BitVec.ofNat 16 ((B.getD (2 * j) 0).toNat + 256 * (B.getD (2 * j + 1) 0).toNat)) := by
  induction B using List.twoStepInduction generalizing j with
  | nil | singleton => simp at inside
  | cons_cons a b rest ih =>
    cases j with
    | zero => rfl
    | succ j =>
      rw [cons_cons_length_div_two] at inside
      exact ih (Nat.lt_of_succ_lt_succ inside)

/-- What follows the whole addresses is left over. -/
theorem tagAddressLeftover_eq_drop (B : List Octet) : tagAddressLeftover B = B.drop (2 * (B.length / 2)) := by
  induction B using List.twoStepInduction with
  | nil | singleton => simp [tagAddressLeftover]
  | cons_cons a b rest ih =>
    rw [tagAddressLeftover, ih, cons_cons_length_div_two, Nat.mul_add_one, List.drop_succ_cons, List.drop_succ_cons]

theorem tagAddressLeftover_length (B : List Octet) :
    (tagAddressLeftover B).length = if B.length % 2 = 0 then 0 else 1 := by
  rw [tagAddressLeftover_eq_drop, List.length_drop]
  split <;> omega

/-- Under BNB_SCALE 2 the trailing octets are even in number, so nothing is left over. -/
theorem scale_eq_one_of_odd {scale : BnbScale} {count : Nat} (odd : scale.toNat * count % 2 = 1) : scale = .one := by
  cases scale with
  | one => rfl
  | two =>
    have even : BnbScale.two.toNat * count % 2 = 0 := Nat.mul_mod_right 2 count
    omega

/-- Settles O17: the list takes the octets in pairs, and the leftover is what the pairs do not cover. -/
theorem tagAddressView : Obligations.TagAddressView := by
  unfold Obligations.TagAddressView
  exact ⟨fun B => ⟨tagAddressList_length B, fun _ inside => tagAddressList_getElem? inside,
    tagAddressLeftover_eq_drop B, tagAddressLeftover_length B⟩, fun _ _ odd => scale_eq_one_of_odd odd⟩

end Sys2Proof.Machine
end

section
/-! PROOFS. The engine's turn (46_frame_assembler.md R296, R307 to R309; assumptions 3, 4 and 10): what each of its
steps answers in each phase, that none of it depends on the host's list of turns, and that a row asked to run outside
its step stops. -/

namespace Sys2Proof.Machine

/-! ## A row outside its step (assumption 10) -/

theorem dispatchMessage_of_not_enabled {s : State} (notEnabled : ¬ s.DispatchEnabled) (k : Kind) (lf : Octet)
    (f : Fields) : dispatchMessage s k lf f = .fault .stepNotEnabled := if_neg notEnabled

/-- Settles O47: a frame-control row tests the phase, and a message row is the dispatch of what it delivers, which
tests phase and cursor. -/
theorem rowsOutsideTheirStepStop : Obligations.RowsOutsideTheirStepStop := by
  unfold Obligations.RowsOutsideTheirStepStop
  refine fun i s => ⟨exec_row_outside, fun message notEnabled => ?_⟩
  obtain ⟨k, hk⟩ := Option.ne_none_iff_exists'.mp message
  obtain ⟨lf, f, delivers⟩ := deliver_of_kind? hk s.params
  rw [exec_message delivers, dispatchMessage_of_not_enabled notEnabled]

/-! ## The engine's step in each phase (R307) -/

/-- No step is enabled in IDLE, RECV, DONE and FAULT, and the engine waits (R345, assumption 4). -/
theorem engineTurn_of_waiting {s : State} (hp : s.phase = .idle ∨ s.phase = .recv ∨ s.phase = .done ∨ s.phase = .fault) :
    engineTurn s = .next s := by
  rw [engineTurn]
  rcases hp with hp | hp | hp | hp <;> rw [hp]

theorem engineTurn_of_region_end {s : State} (hp : s.phase = .disp) (atEnd : s.cur = s.rlen) :
    engineTurn s = finStep s := by
  simp only [engineTurn, hp, if_neg (Nat.not_lt.mpr atEnd.ge), if_pos atEnd]

/-- A cursor past the region, which no sound state has, enables no step. -/
theorem engineTurn_of_region_passed {s : State} (hp : s.phase = .disp) (passed : s.rlen < s.cur) :
    engineTurn s = .next s := by
  simp only [engineTurn, hp, if_neg (Nat.not_lt.mpr passed.le), if_neg passed.ne']

/-- R292's test fails a frame with no frame-control word, and one shorter than its header and FCS (R323). -/
theorem hdrStep_of_short {s : State} (short : s.flen < 2 ∨ s.flen < headerLen s.frameControlWord + 2) :
    hdrStep s = .next (s.afterFault .frameTooShort s.flen) := by
  have tooShort : s.headerTooShort = true := by
    rwa [State.headerTooShort, Bool.or_eq_true, decide_eq_true_iff, decide_eq_true_iff]
  rw [hdrStep, tooShort, if_pos rfl, faultEntry_eq_afterFault]

/-- HDRSTEP either takes FrameTooShort or walks the header and closes it (R308). -/
theorem hdrStep_cases {s : State} (hp : s.phase = .hdr) :
    ((s.flen < 2 ∨ s.flen < headerLen s.frameControlWord + 2) ∧ hdrStep s = .next (s.afterFault .frameTooShort s.flen)) ∨
    (¬ (s.flen < 2 ∨ s.flen < headerLen s.frameControlWord + 2) ∧
      hdrStep s = .next (closeHeader (s.headerWalked s.frameControlWord))) := by
  by_cases short : s.flen < 2 ∨ s.flen < headerLen s.frameControlWord + 2
  · exact .inl ⟨short, hdrStep_of_short short⟩
  · exact .inr ⟨short, hdrStep_eq_closeHeader hp (by omega) (by omega)⟩

/-- With two octets in the frame they are the FCS (R296). -/
theorem finStep_of_fits {s : State} (two : 2 ≤ s.flen) :
    finStep s = .next { s with fcs0 := s.fb.read (s.flen - 2), fcs1 := s.fb.read (s.flen - 1), phase := .done } := by
  have last : s.flen - 1 = s.flen - 2 + 1 := by omega
  have octets : s.memRead (s.flen - 2) 2 = .ok [s.fb.read (s.flen - 2), s.fb.read (s.flen - 2 + 1)] :=
    memRead_eq_octetsAt (by omega)
  simp only [finStep, octets, last]

theorem finStep_of_short {s : State} (short : s.flen < 2) :
    finStep s = .next (s.afterFault .outOfRange (s.hdr.hlen + s.cur)) := by
  simp only [finStep, memRead_error s (s.flen - 2) 2 (by omega), faultEntry_eq_afterFault]

/-- Settles O29: at the end of the region the engine's step is FINSTEP. -/
theorem finishStoresTheFcs : Obligations.FinishStoresTheFcs := by
  unfold Obligations.FinishStoresTheFcs
  intro s engineNext hp atEnd two
  rw [step_eq_engineTurn (.inl ⟨engineNext, rfl⟩), engineTurn_of_region_end hp atEnd, finStep_of_fits two]

/-! ## The list of turns is not looked at (assumption 3) -/

/-- The state with another list of turns. -/
def State.withTurns (s : State) (ts : List HostTurn) : State := { s with hostTurns := ts }

/-- An answer with another list of turns in its next state. -/
def answerWithTurns (ts : List HostTurn) : Result → Result
  | .next t => .next (t.withTurns ts)
  | .fault f => .fault f
  | .refused q => .refused q

section
variable {s : State} (ts : List HostTurn)

theorem hdrStep_withTurns (hp : s.phase = .hdr) : hdrStep (s.withTurns ts) = answerWithTurns ts (hdrStep s) := by
  rcases hdrStep_cases hp with ⟨short, answer⟩ | ⟨long, answer⟩
  · rw [answer]
    exact hdrStep_of_short short
  · obtain ⟨two, fits⟩ := not_or.mp long
    rw [answer]
    exact hdrStep_eq_closeHeader (s := s.withTurns ts) hp (Nat.not_lt.mp two) (Nat.not_lt.mp fits)

/-- A dispatch is decided by the phase, the region's remaining octets and the length (R210). -/
theorem dispatchMessage_withTurns (k : Kind) (lf : Octet) (f : Fields) :
    dispatchMessage (s.withTurns ts) k lf f = answerWithTurns ts (dispatchMessage s k lf f) := by
  rcases dispatchMessage_cases s k lf f with
    ⟨notEnabled, answer⟩ | ⟨hp, left, e, herr, answer⟩ | ⟨hp, left, n, hlen, answer⟩
  · rw [answer]
    exact dispatchMessage_of_not_enabled (s := s.withTurns ts) notEnabled k lf f
  · rw [answer]
    exact dispatchMessage_of_lengthError (s := s.withTurns ts) ⟨hp, left⟩ herr f
  · rw [answer]
    exact dispatchMessage_of_len (s := s.withTurns ts) hp hlen f

/-- In the dispatch phase a row of the word stops, and a message row is a dispatch. -/
theorem exec_withTurns (hp : s.phase = .disp) (i : Instr) :
    exec i (s.withTurns ts) = answerWithTurns ts (exec i s) := by
  cases hk : i.kind? with
  | none =>
    have outside : s.phase ≠ .hdr := by rw [hp]; decide
    rw [exec_row_outside hk outside, exec_row_outside (s := s.withTurns ts) hk outside, answerWithTurns]
  | some k =>
    obtain ⟨lf, f, delivers⟩ := deliver_of_kind? hk s.params
    rw [exec_message delivers, exec_message (s := s.withTurns ts) delivers, dispatchMessage_withTurns]

/-- The region is fetched from the buffer and decoded under the parameters and CFG (R309). -/
theorem dispStep_withTurns (hp : s.phase = .disp) :
    dispStep (s.withTurns ts) = answerWithTurns ts (dispStep s) := by
  have sameRegion : (s.withTurns ts).fetchRegion = s.fetchRegion := rfl
  have sameDecode (r : List Octet) :
      decodeRegion (s.withTurns ts).params (s.withTurns ts).cfgT23 r = decodeRegion s.params s.cfgT23 r := rfl
  rw [dispStep, dispStep, sameRegion]
  cases s.fetchRegion with
  | error e => rfl
  | ok r =>
    simp only [sameDecode]
    cases decodeRegion s.params s.cfgT23 r with
    | instr i => exact exec_withTurns ts hp i
    | filler o => rfl
    | endOfRegion => rfl

theorem finStep_withTurns : finStep (s.withTurns ts) = answerWithTurns ts (finStep s) := by
  rcases Nat.lt_or_ge s.flen 2 with short | two
  · rw [finStep_of_short short]
    exact finStep_of_short (s := s.withTurns ts) short
  · rw [finStep_of_fits two]
    exact finStep_of_fits (s := s.withTurns ts) two

/-- What the engine does depends on nothing the list holds (assumption 3). -/
theorem engineTurn_withTurns : engineTurn (s.withTurns ts) = answerWithTurns ts (engineTurn s) := by
  cases hp : s.phase with
  | idle | recv | done | fault =>
    have waiting : s.phase = .idle ∨ s.phase = .recv ∨ s.phase = .done ∨ s.phase = .fault := by simp [hp]
    rw [engineTurn_of_waiting waiting, engineTurn_of_waiting (s := s.withTurns ts) waiting, answerWithTurns]
  | hdr => rw [engineTurn_of_hdr hp, engineTurn_of_hdr (s := s.withTurns ts) hp, hdrStep_withTurns ts hp]
  | disp =>
    rcases Nat.lt_trichotomy s.cur s.rlen with left | atEnd | passed
    · rw [engineTurn_of_region_left hp left, engineTurn_of_region_left (s := s.withTurns ts) hp left,
        dispStep_withTurns ts hp]
    · rw [engineTurn_of_region_end hp atEnd, engineTurn_of_region_end (s := s.withTurns ts) hp atEnd,
        finStep_withTurns]
    · rw [engineTurn_of_region_passed hp passed, engineTurn_of_region_passed (s := s.withTurns ts) hp passed,
        answerWithTurns]

end

/-- Settles O1: the turn is chosen by the first listed operation, and the engine's does not depend on the list. -/
theorem hostAndEngineTakeTurns : Obligations.HostAndEngineTakeTurns := by
  unfold Obligations.HostAndEngineTakeTurns
  refine fun s => ⟨fun noTurn => step_eq_engineTurn (.inl ⟨noTurn, rfl⟩),
    fun ts passFirst => step_eq_engineTurn (.inr ⟨ts, passFirst, rfl⟩),
    fun _ _ first notPass => step_hostTurn first notPass, fun ts t noTurn answer => ?onPass⟩
  case onPass =>
    have engine : engineTurn s = .next t := (step_eq_engineTurn (.inl ⟨noTurn, rfl⟩)).symm.trans answer
    calc step (s.withTurns (.pass :: ts))
      _ = engineTurn (s.withTurns ts) := step_eq_engineTurn (.inr ⟨ts, rfl, rfl⟩)
      _ = .next (t.withTurns ts) := by rw [engineTurn_withTurns, engine, answerWithTurns]

end Sys2Proof.Machine
end

section
/-! PROOFS. The host's operations (46_frame_assembler.md R301 to R306): each is one turn, which drops it from the list
and does what its rule says. -/

namespace Sys2Proof.Machine

/-- A listed operation's turn answers what the operation does to the state without it (R300). -/
theorem step_of_hostTurn {s u : State} {t : HostTurn} {ts : List HostTurn} (first : s.hostTurns = t :: ts)
    (notPass : t ≠ .pass) (effect : hostTurn t (s.withTurns ts) = u) : step s = .next u :=
  effect ▸ step_hostTurn first notPass

/-! ## PUSH (R301, R373) -/

theorem hostPush_of_inReady {s : State} (ready : s.inReady = true) (o : Octet) (last : Bool) :
    hostPush o last s =
      { s with fb := s.fb.write s.flen o, flen := s.flen + 1, phase := if last then .hdr else .recv } := if_pos ready

theorem hostPush_of_not_inReady {s : State} (notReady : s.inReady = false) (o : Octet) (last : Bool) :
    hostPush o last s = s := if_neg (Bool.eq_false_iff.mp notReady)

/-- Settles O49: an accepted push writes its octet at FLEN, which by the law of a read after a write changes that
address alone. -/
theorem pushStoresOneOctet : Obligations.PushStoresOneOctet := by
  unfold Obligations.PushStoresOneOctet
  intro s o last ts first canonical
  refine ⟨fun ready => ?accepted, fun notReady => ?notAccepted⟩
  case accepted =>
    have stored := Memory.read_write canonical s.flen o
    exact ⟨_, step_of_hostTurn first (by simp) (hostPush_of_inReady (s := s.withTurns ts) ready o last), rfl,
      Memory.write_wf canonical s.flen o, (stored s.flen).trans (if_pos rfl),
      fun a elsewhere => (stored a).trans (if_neg elsewhere)⟩
  case notAccepted =>
    exact step_of_hostTurn first (by simp) (hostPush_of_not_inReady (s := s.withTurns ts) notReady o last)

/-! ## CFGWR (R304) -/

theorem hostCfgwr_of_idle {s : State} (hp : s.phase = .idle) (v : Bool) : hostCfgwr v s = { s with cfgT23 := v } :=
  if_pos hp

theorem hostCfgwr_of_not_idle {s : State} (hp : s.phase ≠ .idle) (v : Bool) : hostCfgwr v s = s := if_neg hp

/-- Settles O50: the turn is the write, which tests the phase. -/
theorem configurationWrittenInIdleOnly : Obligations.ConfigurationWrittenInIdleOnly := by
  unfold Obligations.ConfigurationWrittenInIdleOnly
  intro s v ts first
  exact ⟨fun hp => step_of_hostTurn first (by simp) (hostCfgwr_of_idle (s := s.withTurns ts) hp v),
    fun hp => step_of_hostTurn first (by simp) (hostCfgwr_of_not_idle (s := s.withTurns ts) hp v)⟩

/-! ## ACK and RESET (R305, R306) -/

theorem hostAck_of_finished {s : State} (hp : s.phase = .done ∨ s.phase = .fault) : hostAck s = s.release := if_pos hp

theorem hostAck_of_not_finished {s : State} (hp : ¬ (s.phase = .done ∨ s.phase = .fault)) : hostAck s = s := if_neg hp

/-- Settles O51: ACK is the release or nothing by its phase, RESET writes the reset values; these read 0. -/
theorem ackAndResetClear : Obligations.AckAndResetClear := by
  unfold Obligations.AckAndResetClear
  refine ⟨fun s ts => ⟨fun first hp => ?ack, fun first notDone notFault => ?ackIgnored, fun first => ?reset⟩,
    fun p => ⟨?readZero, rfl, fun _ => rfl⟩⟩
  case ack =>
    exact ⟨_, step_of_hostTurn first (by simp) (hostAck_of_finished (s := s.withTurns ts) hp), rfl⟩
  case ackIgnored =>
    have notFinished := not_or.mpr ⟨notDone, notFault⟩
    exact step_of_hostTurn first (by simp) (hostAck_of_not_finished (s := s.withTurns ts) notFinished)
  case reset => exact ⟨_, step_of_hostTurn first (by simp) rfl, rfl⟩
  case readZero =>
    exact (List.map_inj_left (f := hostRead (State.resetWith p)) (g := fun _ => some (.num 0))).mp rfl

end Sys2Proof.Machine
end

section
/-! PROOFS. Big-step agreement (46_frame_assembler.md R290, R308 to R310): the engine's steps compute decodeFrame of
the frame it holds. The header step writes DecodeHeader's result; each dispatch step is one turn of Dispatch's loop
over what is left of the region; the finishing step adds the FCS. -/

namespace Sys2Proof.Machine

/-! ## Runs of several steps -/

theorem run_succ_of_step {s t : State} (h : step s = .next t) (k : Nat) : State.run (k + 1) s = State.run k t := by
  rw [State.run, h]

theorem run_one_of_step {s t : State} (h : step s = .next t) : State.run 1 s = .next t := run_succ_of_step h 0

/-- A run goes on where it has got to. -/
theorem run_add_of_run {s t : State} {k : Nat} (h : State.run k s = .next t) (n : Nat) :
    State.run (k + n) s = State.run n t := by
  induction k generalizing s with
  | zero =>
    obtain rfl := Host.Outcome.next.inj h
    rw [Nat.zero_add]
  | succ k ih =>
    cases first : step s with
    | next u =>
      rw [run_succ_of_step first] at h
      rw [Nat.succ_add, run_succ_of_step first, ih h]
    | fault f => simp [State.run, first] at h
    | refused q => simp [State.run, first] at h

/-! ## One turn of Dispatch's loop (R213) -/

section
variable {p : Params} {t23 : Bool} (fuel i : Nat) {r : List Octet}

theorem dispatchFrom_nil : dispatchFrom p t23 fuel i [] = .ok [] := by
  cases fuel <;> rfl

theorem dispatchFrom_succ_of_filler {o : Octet} (decoded : decodeRegion p t23 r = .filler o) :
    dispatchFrom p t23 (fuel + 1) i r = dispatchFrom p t23 fuel (i + 1) (r.drop 1) := by
  rw [dispatchFrom, decoded]

variable {ins : Instr} {k : Kind} {lf : Octet} {f : Fields} (decoded : decodeRegion p t23 r = .instr ins)
  (delivers : deliver p ins = some (k, lf, f))
include decoded delivers

theorem dispatchFrom_succ_of_lengthError {e : DecodeError} (herr : msgLen p k r.length lf = .error e) :
    dispatchFrom p t23 (fuel + 1) i r = .error e := by
  simp only [dispatchFrom, decoded, delivers, makeRecord_of_error herr]

theorem dispatchFrom_succ_of_len {n : Nat} (hlen : msgLen p k r.length lf = .ok n) :
    dispatchFrom p t23 (fuel + 1) i r = (dispatchFrom p t23 fuel (i + n) (r.drop n)).map
      ({ kind := k, tag := tagOf p.tagmap k, off := i, len := n, fields := f } :: ·) := by
  simp only [dispatchFrom, decoded, delivers, makeRecord_of_len hlen]

end

/-! ## The region at the cursor (R72) -/

theorem octetsAt_length (s : State) (a n : Nat) : (s.octetsAt a n).length = n := by simp [State.octetsAt]

theorem octetsAt_drop (s : State) (a n m : Nat) : (s.octetsAt a n).drop m = s.octetsAt (a + m) (n - m) := by
  apply List.ext_getElem
  · simp [State.octetsAt]
  · simp [State.octetsAt, Nat.add_assoc]

/-- What is left of the region, from the cursor on. -/
def State.restOfRegion (s : State) : List Octet := s.bufferAt 0 s.rem

theorem restOfRegion_length (s : State) : s.restOfRegion.length = s.rem := octetsAt_length s _ _

theorem restOfRegion_of_atEnd {s : State} (atEnd : s.cur = s.rlen) : s.restOfRegion = [] := by
  rw [← List.length_eq_zero_iff, restOfRegion_length, State.rem, atEnd, Nat.sub_self]

/-- Moving the cursor leaves the rest of the region from there. -/
theorem restOfRegion_of_moved (s : State) (n : Nat) (q : List Record) :
    ({ s with msgq := q, cur := s.cur + n } : State).restOfRegion = s.restOfRegion.drop n := by
  have start : s.hdr.hlen + s.cur + 0 + n = s.hdr.hlen + (s.cur + n) + 0 := by omega
  have size : s.rlen - s.cur - n = s.rlen - (s.cur + n) := by omega
  rw [State.restOfRegion, State.restOfRegion, State.bufferAt, State.bufferAt, octetsAt_drop, State.rem, State.rem, start,
    size]
  rfl

theorem restOfRegion_afterMessage (s : State) (m : Record) :
    (s.afterMessage m).restOfRegion = s.restOfRegion.drop m.len := restOfRegion_of_moved s m.len _

theorem rem_afterMessage (s : State) (m : Record) : (s.afterMessage m).rem = s.rem - m.len := Nat.sub_add_eq _ _ _

/-! ## The dispatch steps compute Dispatch (R309, R310) -/

/-- Where the dispatch of the rest of a region leads: its records are queued and the cursor is at the region's end, or its
error is taken, at frame offset `pos`. -/
def State.regionDispatched (s : State) (pos : Nat) : Except DecodeError (List Record) → State
  | .ok msgs => { s with msgq := s.msgq ++ msgs, cur := s.rlen }
  | .error e => s.afterFault e pos

theorem regionDispatched_of_skipped (s : State) (pos : Nat) (outcome : Except DecodeError (List Record)) :
    ({ s with cur := s.cur + 1 } : State).regionDispatched pos outcome = s.regionDispatched pos outcome := by
  cases outcome <;> rfl

/-- A queued record is the first of the records of the region from it on. -/
theorem regionDispatched_afterMessage (s : State) (m : Record) (pos : Nat) (outcome : Except DecodeError (List Record)) :
    (s.afterMessage m).regionDispatched pos outcome = s.regionDispatched pos (outcome.map (m :: ·)) := by
  cases outcome with
  | error e => rfl
  | ok msgs => simp [State.regionDispatched, State.afterMessage, Except.map]

theorem decodeRegion_of_noMatch {s : State} (left : s.cur < s.rlen)
    (noMatch : matchTag s.params.tagmap s.cfgT23 (s.octetAt 0) = none) :
    decodeRegion s.params s.cfgT23 s.restOfRegion = .filler (s.octetAt 0) := by
  rw [State.restOfRegion, region_eq_cons left]
  simp only [decodeRegion, noMatch]

theorem decodeRegion_of_match {s : State} {k : Kind} (left : s.cur < s.rlen)
    (matched : matchTag s.params.tagmap s.cfgT23 (s.octetAt 0) = some k) :
    decodeRegion s.params s.cfgT23 s.restOfRegion = .instr (decodeMessage s.params k s.restOfRegion) := by
  rw [State.restOfRegion, region_eq_cons left]
  simp only [decodeRegion, matched]

/-- The engine dispatches the rest of the region to `outcome`, in at most one step an octet. -/
def State.RegionRun (s : State) (outcome : Except DecodeError (List Record)) : Prop :=
  ∃ k pos, k ≤ s.rem ∧ State.run k s = .next (s.regionDispatched pos outcome)

/-- With the cursor at the region's end neither the engine nor the loop has anything left to do (R212). -/
theorem regionRun_of_atEnd {s : State} (atEnd : s.cur = s.rlen) (fuel : Nat) :
    s.RegionRun (dispatchFrom s.params s.cfgT23 fuel s.cur s.restOfRegion) := by
  have stays : s.regionDispatched 0 (.ok []) = s := by
    rw [State.regionDispatched, List.append_nil]
    exact congrArg (fun c => { s with cur := c }) atEnd.symm
  rw [restOfRegion_of_atEnd atEnd, dispatchFrom_nil]
  exact ⟨0, 0, Nat.zero_le _, congrArg Host.Outcome.next stays.symm⟩

/-- A step that moves the cursor, and from there the region's run, is a run of the region. -/
theorem regionRun_of_step {s t : State} {rest outcome : Except DecodeError (List Record)} (first : step s = .next t)
    (shorter : t.rem < s.rem) (run : t.RegionRun rest)
    (sameEnd : ∀ pos, t.regionDispatched pos rest = s.regionDispatched pos outcome) : s.RegionRun outcome := by
  obtain ⟨k, pos, bound, reached⟩ := run
  exact ⟨k + 1, pos, by omega, by rw [run_succ_of_step first, reached, sameEnd]⟩

theorem regionRun_of_fault {s : State} {e : DecodeError} {pos : Nat} (left : s.cur < s.rlen)
    (first : step s = .next (s.afterFault e pos)) : s.RegionRun (.error e) :=
  ⟨1, pos, Nat.sub_pos_of_lt left, run_one_of_step first⟩

/-- The step on filler is one turn of the loop (R211). -/
theorem regionRun_of_noMatch {s : State} {fuel : Nat} (hd : s.Dispatching) (left : s.cur < s.rlen)
    (noMatch : matchTag s.params.tagmap s.cfgT23 (s.octetAt 0) = none)
    (rest : ({ s with cur := s.cur + 1 } : State).RegionRun
      (dispatchFrom s.params s.cfgT23 fuel (s.cur + 1) (s.restOfRegion.drop 1))) :
    s.RegionRun (dispatchFrom s.params s.cfgT23 (fuel + 1) s.cur s.restOfRegion) := by
  rw [dispatchFrom_succ_of_filler fuel _ (decodeRegion_of_noMatch left noMatch)]
  exact regionRun_of_step (step_of_noMatch hd left noMatch) (Nat.sub_succ_lt_self _ _ left) rest
    fun pos => regionDispatched_of_skipped s pos _

/-- The step on a match is one turn of the loop: both end with the error of the message's length, or both go on past its
record (R210, R218). -/
theorem regionRun_of_match {s : State} {fuel : Nat} {k : Kind} (hd : s.Dispatching) (left : s.cur < s.rlen)
    (matched : matchTag s.params.tagmap s.cfgT23 (s.octetAt 0) = some k)
    (rest : ∀ m : Record, 3 ≤ m.len → m.len ≤ s.rem → (s.afterMessage m).RegionRun
      (dispatchFrom s.params s.cfgT23 fuel (s.cur + m.len) (s.restOfRegion.drop m.len))) :
    s.RegionRun (dispatchFrom s.params s.cfgT23 (fuel + 1) s.cur s.restOfRegion) := by
  have ⟨_, hp, _⟩ := hd
  obtain ⟨lf, f, delivers, _⟩ := deliver_decodeMessage s.params k s.restOfRegion
  have row := decodeRegion_of_match left matched
  have first : step s = dispatchMessage s k lf f := (step_of_match hd left matched).trans (exec_message delivers)
  cases hlen : msgLen s.params k s.restOfRegion.length lf with
  | error e =>
    rw [dispatchFrom_succ_of_lengthError fuel _ row delivers hlen]
    rw [restOfRegion_length] at hlen
    exact regionRun_of_fault left (first.trans (dispatchMessage_of_lengthError ⟨hp, left⟩ hlen f))
  | ok n =>
    rw [dispatchFrom_succ_of_len fuel _ row delivers hlen]
    rw [restOfRegion_length] at hlen
    obtain ⟨atLeast, fits⟩ := msgLen_ok_bounds hlen
    have shorter : s.rem - n < s.rem := by omega
    exact regionRun_of_step (first.trans (dispatchMessage_of_len hp hlen f)) ((rem_afterMessage s _).trans_lt shorter)
      (rest _ atLeast fits) fun pos => regionDispatched_afterMessage s _ pos _

/-- The engine's dispatch steps reach what Dispatch's loop answers for the rest of the region, by induction on the loop's
turns (R212, R213). -/
theorem regionRun_dispatchFrom {s : State} (fuel : Nat) (hd : s.Dispatching) (inRegion : s.cur ≤ s.rlen)
    (enough : s.rem ≤ fuel) : s.RegionRun (dispatchFrom s.params s.cfgT23 fuel s.cur s.restOfRegion) := by
  induction fuel generalizing s with
  | zero => exact regionRun_of_atEnd (by rw [State.rem] at enough; omega) 0
  | succ fuel ih =>
    rcases inRegion.eq_or_lt with atEnd | left
    · exact regionRun_of_atEnd atEnd (fuel + 1)
    cases matched : matchTag s.params.tagmap s.cfgT23 (s.octetAt 0) with
    | none =>
      have fewer : ({ s with cur := s.cur + 1 } : State).rem ≤ fuel :=
        Nat.le_of_lt_succ ((Nat.sub_succ_lt_self _ _ left).trans_le enough)
      exact regionRun_of_noMatch hd left matched (restOfRegion_of_moved s 1 s.msgq ▸ ih hd left fewer)
    | some k =>
      refine regionRun_of_match hd left matched fun m atLeast fits => ?_
      have fewer : (s.afterMessage m).rem ≤ fuel := by rw [rem_afterMessage]; omega
      have within : s.cur + m.len ≤ s.rlen := by rw [State.rem] at fits; omega
      exact restOfRegion_afterMessage s m ▸ ih (s := s.afterMessage m) hd within fewer

/-! ## The frame a state holds (R32, R60) -/

theorem frameOctets_eq_octetsAt (s : State) : s.frameOctets = s.octetsAt 0 s.flen := by
  simp [State.frameOctets, State.octetsAt]

theorem frameOctets_length (s : State) : s.frameOctets.length = s.flen := by
  rw [frameOctets_eq_octetsAt, octetsAt_length]

theorem sliceAt_frameOctets {s : State} {a n : Nat} (inside : a + n ≤ s.flen) :
    sliceAt s.frameOctets a n = s.octetsAt a n := by
  rw [sliceAt, frameOctets_eq_octetsAt, octetsAt_drop_take s 0 inside, Nat.zero_add]

theorem getD_frameOctets {s : State} {i : Nat} (inside : i < s.flen) : s.frameOctets.getD i 0 = s.fb.read i := by
  simp [State.frameOctets, inside]

theorem controlWord_frameOctets {s : State} (two : 2 ≤ s.flen) :
    controlWord s.frameOctets = s.frameControlWord := by
  rw [controlWord, sliceAt_frameOctets two]
  rfl

/-- The engine and decodeFrame test a frame's length alike (R292). -/
theorem decodeFrame_frameOctets_of_short {s : State} (short : s.flen < 2 ∨ s.flen < headerLen s.frameControlWord + 2) :
    decodeFrame s.params s.cfgT23 s.frameOctets = .error .frameTooShort := by
  have three := three_le_headerLen (controlWord s.frameOctets)
  apply decodeFrame_of_short
  rw [frameOctets_length]
  rcases Nat.lt_or_ge s.flen 2 with noWord | two
  · omega
  · rw [controlWord_frameOctets two]
    omega

/-! ## The header registers hold DecodeHeader's result (R180, R60) -/

/-- The MacHeader that the header registers stand for (R60). -/
def HeaderRegs.macHeader (h : HeaderRegs) : MacHeader :=
  { fc := { fcw := h.fcw, ft := h.ft, sec := h.sec, fp := h.fp, ar := h.ar, pic := h.pic, dam := h.dam, fv := h.fv
            sam := h.sam }
    seq := h.seq
    destPan := if h.dpanV then some h.dpan else none
    destAddr := if h.daddrV then some h.daddr else none
    srcPan := if h.spanV then some h.span else none
    srcAddr := if h.saddrV then some h.saddr else none
    length := h.hlen }

/-- The Frame of a state, its header by the header registers (R60). -/
theorem frame_eq (s : State) : s.frame =
    { raw := s.frameOctets, header := s.hdr.macHeader
      payload := { messages := s.msgq, raw := sliceAt s.frameOctets s.hdr.hlen s.rlen, length := s.rlen }
      fcs := (s.fcs0, s.fcs1) } := rfl

/-- What a mode says of its addressing fields: nothing is there, or an address of its size is, after a PAN identifier
that only the source may lack (R105). -/
theorem addressing_cases (m : AddrMode) :
    (carriesAddress m = false ∧ addressOctets m = none ∧ destinationLength m = 0 ∧ ∀ pic, sourceLength pic m = 0) ∨
    (carriesAddress m = true ∧ addressOctets m = some (addressSize m) ∧ destinationLength m = 2 + addressSize m ∧
      ∀ pic, sourceLength pic m = (if pic then 0 else 2) + addressSize m) := by
  cases m with
  | noAddress | reserved => exact .inl ⟨rfl, rfl, rfl, fun _ => rfl⟩
  | short16 | long64 => exact .inr ⟨rfl, rfl, rfl, fun _ => rfl⟩

/-- The header by its word and the octets past it: what the six-step walk reads, and where (R180 to R190). -/
def headerRead (w : BitVec 16) (read : Nat → Nat → List Octet) : MacHeader :=
  let fc := decodeWord w
  let source := 3 + destinationLength fc.dam
  let sourceAddress := if carriesSourcePan fc.pic fc.sam then source + 2 else source
  { fc := fc
    seq := BitVec.ofNat 8 (LE (read 2 1))
    destPan := if carriesAddress fc.dam then some (BitVec.ofNat 16 (LE (read 3 2))) else none
    destAddr := if carriesAddress fc.dam then some (BitVec.ofNat 64 (LE (read 5 (addressSize fc.dam)))) else none
    srcPan := if carriesSourcePan fc.pic fc.sam then some (BitVec.ofNat 16 (LE (read source 2))) else none
    srcAddr :=
      if carriesAddress fc.sam then some (BitVec.ofNat 64 (LE (read sourceAddress (addressSize fc.sam)))) else none
    length := headerLen w }

/-- DecodeHeader is that walk over the frame's octets, whichever fields the modes and PIC say are there. -/
theorem decodeHeader_eq_headerRead (F : List Octet) : decodeHeader F = headerRead (controlWord F) (sliceAt F) := by
  obtain ⟨fc, hfc⟩ : ∃ fc, decodeWord (BitVec.ofNat 16 (LE (sliceAt F 0 2))) = fc := ⟨_, rfl⟩
  rcases addressing_cases fc.dam with ⟨noDest, dam, destLen, _⟩ | ⟨dest, dam, destLen, _⟩ <;>
    rcases addressing_cases fc.sam with ⟨noSource, sam, _, sourceLen⟩ | ⟨source, sam, _, sourceLen⟩ <;>
    cases hpic : fc.pic <;>
    simp [decodeHeader, headerRead, headerLen, controlWord, carriesSourcePan, ← Nat.add_assoc, *]

/-- The walk reads inside the header only. -/
theorem headerRead_congr {w : BitVec 16} {read read' : Nat → Nat → List Octet}
    (same : ∀ a n, a + n ≤ headerLen w → read a n = read' a n) : headerRead w read = headerRead w read' := by
  obtain ⟨fc, hfc⟩ : ∃ fc, decodeWord w = fc := ⟨_, rfl⟩
  have hlen : headerLen w = 3 + destinationLength fc.dam + sourceLength fc.pic fc.sam := by rw [headerLen, hfc]
  rcases addressing_cases fc.dam with ⟨noDest, dam, destLen, _⟩ | ⟨dest, dam, destLen, _⟩ <;>
    rcases addressing_cases fc.sam with ⟨noSource, sam, _, sourceLen⟩ | ⟨source, sam, _, sourceLen⟩ <;>
    cases hpic : fc.pic <;>
    simp [hpic, destLen, sourceLen] at hlen <;>
    simp (disch := omega) [headerRead, carriesSourcePan, *]

theorem ite_some_ite {α : Type} (c : Bool) (x y : α) :
    (if c then some (if c then x else y) else none) = if c then some x else none := by
  cases c <;> rfl

section
variable (s : State) (w : BitVec 16)

/-- The source fields begin where the destination's end. -/
theorem controlWalked_destinationWritten_hc (m : AddrMode) :
    ((s.controlWalked w).destinationWritten m).hc = 3 + destinationLength m :=
  (s.controlWalked w).destinationWritten_hc m

theorem headerWalked_destPan : (headerRead w s.octetsAt).destPan =
    if (s.headerWalked w).hdr.dpanV then some (s.headerWalked w).hdr.dpan else none := (ite_some_ite _ _ _).symm

theorem headerWalked_destAddr : (headerRead w s.octetsAt).destAddr =
    if (s.headerWalked w).hdr.daddrV then some (s.headerWalked w).hdr.daddr else none := (ite_some_ite _ _ _).symm

theorem headerWalked_srcPan : (headerRead w s.octetsAt).srcPan =
    if (s.headerWalked w).hdr.spanV then some (s.headerWalked w).hdr.span else none := by
  simp only [headerRead, ← controlWalked_destinationWritten_hc s w]
  exact (ite_some_ite _ _ _).symm

theorem headerWalked_srcAddr : (headerRead w s.octetsAt).srcAddr =
    if (s.headerWalked w).hdr.saddrV then some (s.headerWalked w).hdr.saddr else none := by
  simp only [headerRead, ← controlWalked_destinationWritten_hc s w]
  exact (ite_some_ite _ _ _).symm

theorem headerWalked_seq : (headerRead w s.octetsAt).seq = (s.headerWalked w).hdr.seq := by
  have octet : BitVec.ofNat 8 (LE (s.octetsAt 2 1)) = s.fb.read 2 := by simp [State.octetsAt]
  exact octet

/-- The registers after the engine's walk hold what it reads in the buffer. -/
theorem macHeader_headerWalked :
    (closeHeader (s.headerWalked w)).hdr.macHeader = headerRead w s.octetsAt := by
  rw [closeHeader_hdr, State.headerWalked_hc, HeaderRegs.macHeader, ← headerWalked_destPan, ← headerWalked_destAddr,
    ← headerWalked_srcPan, ← headerWalked_srcAddr, ← headerWalked_seq]
  rfl

end

/-! ## From the header phase to the region's end -/

/-- The walk writes the header registers and the header cursor only (R180). -/
theorem sameButHeader_headerWalked (s : State) (w : BitVec 16) : SameButHeader s (s.headerWalked w) := by
  have control : SameButHeader s (s.controlWalked w) := SameButHeader.refl s
  have destination : SameButHeader (s.controlWalked w) ((s.controlWalked w).destinationWritten (decodeWord w).dam) :=
    SameButHeader.refl (s.controlWalked w)
  exact (control.trans destination).trans (SameButHeader.refl _)

/-- The state after the header step (R308). Proofs go through its fields. -/
@[irreducible] def State.headerClosed (s : State) : State := closeHeader (s.headerWalked s.frameControlWord)

section
variable (s : State)

@[simp] theorem headerClosed_params : s.headerClosed.params = s.params := by
  obtain ⟨params, _⟩ := sameButHeader_headerWalked s s.frameControlWord
  rw [State.headerClosed, closeHeader_params, params]

@[simp] theorem headerClosed_hostTurns : s.headerClosed.hostTurns = s.hostTurns := by
  obtain ⟨_, hostTurns, _⟩ := sameButHeader_headerWalked s s.frameControlWord
  rw [State.headerClosed, closeHeader_hostTurns, hostTurns]

@[simp] theorem headerClosed_cfgT23 : s.headerClosed.cfgT23 = s.cfgT23 := by
  obtain ⟨_, _, cfgT23, _⟩ := sameButHeader_headerWalked s s.frameControlWord
  rw [State.headerClosed, closeHeader_cfgT23, cfgT23]

@[simp] theorem headerClosed_fb : s.headerClosed.fb = s.fb := by
  obtain ⟨_, _, _, fb, _⟩ := sameButHeader_headerWalked s s.frameControlWord
  rw [State.headerClosed, closeHeader_fb, fb]

@[simp] theorem headerClosed_flen : s.headerClosed.flen = s.flen := by
  obtain ⟨_, _, _, _, flen, _⟩ := sameButHeader_headerWalked s s.frameControlWord
  rw [State.headerClosed, closeHeader_flen, flen]

@[simp] theorem headerClosed_phase : s.headerClosed.phase = .disp := by
  rw [State.headerClosed, closeHeader_phase]

@[simp] theorem headerClosed_cur : s.headerClosed.cur = 0 := by
  rw [State.headerClosed, closeHeader_cur]

@[simp] theorem headerClosed_msgq : s.headerClosed.msgq = [] := by
  rw [State.headerClosed, closeHeader_msgq]

@[simp] theorem headerClosed_macHeader :
    s.headerClosed.hdr.macHeader = headerRead s.frameControlWord s.octetsAt := by
  rw [State.headerClosed, macHeader_headerWalked]

@[simp] theorem headerClosed_hlen : s.headerClosed.hdr.hlen = headerLen s.frameControlWord := by
  rw [State.headerClosed, closeHeader_hdr, State.headerWalked_hc]

@[simp] theorem headerClosed_rlen : s.headerClosed.rlen = s.flen - 2 - headerLen s.frameControlWord := by
  obtain ⟨_, _, _, _, flen, _⟩ := sameButHeader_headerWalked s s.frameControlWord
  rw [State.headerClosed, closeHeader_rlen, State.headerWalked_hc, flen]

theorem headerClosed_rem : s.headerClosed.rem = s.headerClosed.rlen := by
  rw [State.rem, headerClosed_cur, Nat.sub_zero]

theorem headerClosed_restOfRegion :
    s.headerClosed.restOfRegion = s.octetsAt (headerLen s.frameControlWord) s.headerClosed.rlen := by
  simp only [State.restOfRegion, State.bufferAt, State.octetsAt, headerClosed_rem, headerClosed_hlen, headerClosed_cur,
    headerClosed_fb, Nat.add_zero]

end

section
variable {s : State} (two : 2 ≤ s.flen)
include two

theorem regionLength_frameOctets : regionLength s.frameOctets = s.headerClosed.rlen := by
  rw [regionLength, frameOctets_length, controlWord_frameOctets two, headerClosed_rlen]

variable (fits : headerLen s.frameControlWord + 2 ≤ s.flen)
include fits

/-- The region the engine dispatches is decodeFrame's payload region (R71, R290). -/
theorem payloadRegion_frameOctets : payloadRegion s.frameOctets = s.headerClosed.restOfRegion := by
  have inside : headerLen s.frameControlWord + s.headerClosed.rlen ≤ s.flen := by rw [headerClosed_rlen]; omega
  rw [payloadRegion, regionLength_frameOctets two, controlWord_frameOctets two, sliceAt_frameOctets inside,
    headerClosed_restOfRegion]

/-- The header step, then the region's run. -/
theorem run_header_region (engineNext : s.EngineNext) (hp : s.phase = .hdr) :
    ∃ k pos, k ≤ s.headerClosed.rlen ∧ State.run (1 + k) s = .next (s.headerClosed.regionDispatched pos
      (dispatch s.params s.cfgT23 (payloadRegion s.frameOctets))) := by
  have first : step s = .next s.headerClosed := by
    rw [step_eq_engineTurn (.inl ⟨engineNext, rfl⟩), engineTurn_of_hdr hp, hdrStep_eq_closeHeader hp two fits,
      State.headerClosed]
  have dispatching : s.headerClosed.Dispatching := by
    refine ⟨(headerClosed_hostTurns s).trans engineNext, headerClosed_phase s, ?_⟩
    rw [headerClosed_hlen, headerClosed_rlen, headerClosed_flen]
    omega
  obtain ⟨k, pos, bound, reached⟩ := regionRun_dispatchFrom s.headerClosed.restOfRegion.length dispatching
    (by rw [headerClosed_cur]; exact Nat.zero_le _) (restOfRegion_length _).ge
  rw [headerClosed_rem] at bound
  rw [headerClosed_params, headerClosed_cfgT23, headerClosed_cur, ← payloadRegion_frameOctets two fits] at reached
  exact ⟨k, pos, bound, (run_add_of_run (run_one_of_step first) k).trans reached⟩

/-! ## DONE holds decodeFrame's result (R60, R290) -/

omit fits

/-- The state in DONE, the region having dispatched to `msgs`. -/
def State.finished (s : State) (msgs : List Record) : State :=
  { s.headerClosed with
    msgq := msgs, cur := s.headerClosed.rlen, fcs0 := s.fb.read (s.flen - 2), fcs1 := s.fb.read (s.flen - 1)
    phase := .done }

theorem step_of_regionDispatched (engineNext : s.EngineNext) (pos : Nat) (msgs : List Record) :
    step (s.headerClosed.regionDispatched pos (.ok msgs)) = .next (s.finished msgs) := by
  have answer := finishStoresTheFcs (s.headerClosed.regionDispatched pos (.ok msgs))
    ((headerClosed_hostTurns s).trans engineNext) (headerClosed_phase s) rfl (by simpa [State.regionDispatched] using two)
  simpa [State.regionDispatched, State.finished] using answer

include fits in
theorem frame_finished (msgs : List Record) : (s.finished msgs).frame = assembledFrame s.frameOctets msgs := by
  have octets : (s.finished msgs).frameOctets = s.frameOctets := by
    simp only [State.frameOctets, State.finished, headerClosed_fb, headerClosed_flen]
  have header : (s.finished msgs).hdr.macHeader = decodeHeader s.frameOctets := by
    have sameRead := headerRead_congr (w := s.frameControlWord) (read := sliceAt s.frameOctets) (read' := s.octetsAt)
      fun a n inside => sliceAt_frameOctets (by omega)
    rw [decodeHeader_eq_headerRead, controlWord_frameOctets two, sameRead]
    exact headerClosed_macHeader s
  have region : sliceAt s.frameOctets (s.finished msgs).hdr.hlen (s.finished msgs).rlen = payloadRegion s.frameOctets := by
    rw [payloadRegion, regionLength_frameOctets two, controlWord_frameOctets two, ← headerClosed_hlen]
    rfl
  rw [frame_eq, octets, header, region, assembledFrame, frameOctets_length, getD_frameOctets (by omega),
    getD_frameOctets (by omega), regionLength_frameOctets two]
  rfl

end

/-- Settles O59: a short frame faults at once; else the header step and the region's run reach what Dispatch answers,
its error taken or its records queued, and from these the finishing step makes decodeFrame's result. -/
theorem engineAgreesWithDecodeFrame : Obligations.EngineAgreesWithDecodeFrame := by
  unfold Obligations.EngineAgreesWithDecodeFrame
  intro s engineNext hp
  by_cases short : s.flen < 2 ∨ s.flen < headerLen s.frameControlWord + 2
  case pos =>
    rw [decodeFrame_frameOctets_of_short short]
    have first : step s = .next (s.afterFault .frameTooShort s.flen) := by
      rw [step_eq_engineTurn (.inl ⟨engineNext, rfl⟩), engineTurn_of_hdr hp, hdrStep_of_short short]
    refine ⟨fun _ impossible => (nomatch impossible), fun e raised => ?_⟩
    obtain rfl := Except.error.inj raised
    exact ⟨0, _, Nat.zero_le _, run_one_of_step first, rfl, rfl⟩
  case neg =>
    have two : 2 ≤ s.flen := by omega
    have fits : headerLen s.frameControlWord + 2 ≤ s.flen := by omega
    obtain ⟨k, pos, bound, reached⟩ := run_header_region two fits engineNext hp
    rw [decodeFrame_of_fits _ _ (by rwa [controlWord_frameOctets two, frameOctets_length])]
    cases outcome : dispatch s.params s.cfgT23 (payloadRegion s.frameOctets) with
    | ok msgs =>
      refine ⟨fun f decoded => ?_, fun _ impossible => (nomatch impossible)⟩
      obtain rfl := Except.ok.inj decoded
      rw [outcome] at reached
      refine ⟨k, s.finished msgs, bound.trans_eq (regionLength_frameOctets two).symm, ?_, rfl, frame_finished two fits msgs⟩
      rw [run_add_of_run reached, run_one_of_step (step_of_regionDispatched two engineNext pos msgs)]
    | error e =>
      refine ⟨fun _ impossible => (nomatch impossible), fun e' raised => ?_⟩
      obtain rfl := Except.error.inj raised
      rw [outcome] at reached
      have three := three_le_headerLen s.frameControlWord
      rw [headerClosed_rlen] at bound
      exact ⟨k, _, by omega, reached, rfl, rfl⟩

end Sys2Proof.Machine
end

section
/-! PROOFS. The FCS (46_frame_assembler.md R295): decodeFrame reads a frame's last two octets into the raw octets and
the FCS only. Where the header and the FCS fit, header and region lie before them; where they do not, the frame is too
short whatever the two octets are. -/

namespace Sys2Proof.Machine

theorem sliceAt_append_of_le {F : List Octet} {a n : Nat} (inside : a + n ≤ F.length) (X : List Octet) :
    sliceAt (F ++ X) a n = sliceAt F a n := by
  have fits : n ≤ (F.drop a).length := by rw [List.length_drop]; omega
  rw [sliceAt, sliceAt, List.drop_append_of_le_length (by omega), List.take_append_of_le_length fits]

section
variable {F : List Octet} (two : 2 ≤ F.length)
include two

theorem controlWord_append (X : List Octet) : controlWord (F ++ X) = controlWord F := by
  rw [controlWord, sliceAt_append_of_le two, controlWord]

variable (fits : headerLen (controlWord F) ≤ F.length)
include fits

theorem decodeHeader_append (X : List Octet) : decodeHeader (F ++ X) = decodeHeader F := by
  rw [decodeHeader_eq_headerRead, decodeHeader_eq_headerRead, controlWord_append two]
  exact headerRead_congr fun a n inside => sliceAt_append_of_le (by omega) X

omit fits in
theorem regionLength_append_two (a b : Octet) :
    regionLength (F ++ [a, b]) = F.length - headerLen (controlWord F) := by
  rw [regionLength, controlWord_append two, List.length_append]
  rfl

theorem payloadRegion_append_two (a b : Octet) : payloadRegion (F ++ [a, b]) = F.drop (headerLen (controlWord F)) := by
  rw [payloadRegion, regionLength_append_two two, controlWord_append two, sliceAt_append_of_le (by omega), sliceAt,
    ← List.length_drop, List.take_length]

/-- The header and the region are those of the octets before the FCS. -/
theorem assembledFrame_append_two (a b : Octet) (msgs : List Record) :
    assembledFrame (F ++ [a, b]) msgs =
      { raw := F ++ [a, b], header := decodeHeader F
        payload := { messages := msgs, raw := F.drop (headerLen (controlWord F))
                     length := F.length - headerLen (controlWord F) }
        fcs := (a, b) } := by
  rw [assembledFrame, decodeHeader_append two fits, payloadRegion_append_two two fits, regionLength_append_two two]
  simp

theorem decodeFrame_append_two (p : Params) (t23 : Bool) (a b : Octet) :
    decodeFrame p t23 (F ++ [a, b]) =
      (dispatch p t23 (F.drop (headerLen (controlWord F)))).map (assembledFrame (F ++ [a, b])) := by
  rw [decodeFrame_of_fits p t23 (by rw [controlWord_append two, List.length_append]; exact Nat.add_le_add_right fits 2),
    payloadRegion_append_two two fits]

end

/-- Where header and FCS do not fit, the last two octets do not help: a word that they reach into is at the end of a frame
shorter than every header (R292). -/
theorem decodeFrame_append_two_of_short (p : Params) (t23 : Bool) {F : List Octet}
    (short : F.length < 2 ∨ F.length < headerLen (controlWord F)) (a b : Octet) :
    decodeFrame p t23 (F ++ [a, b]) = .error .frameTooShort := by
  have three := three_le_headerLen (controlWord (F ++ [a, b]))
  apply decodeFrame_of_short
  rw [List.length_append]
  refine Nat.add_lt_add_right ?_ 2
  rcases Nat.lt_or_ge F.length 2 with noWord | two
  · omega
  · rw [controlWord_append two]
    omega

/-- Settles O60: a short frame is too short with any last two octets; else the dispatch of the region before them
decides, and a result holds them as raw octets and FCS only. -/
theorem fcsIsStoredNotChecked : Obligations.FcsIsStoredNotChecked := by
  unfold Obligations.FcsIsStoredNotChecked
  intro p t23 F a b c d
  by_cases short : F.length < 2 ∨ F.length < headerLen (controlWord F)
  case pos =>
    rw [decodeFrame_append_two_of_short p t23 short, decodeFrame_append_two_of_short p t23 short]
    exact ⟨fun _ raised => raised, fun _ impossible => nomatch impossible⟩
  case neg =>
    have two : 2 ≤ F.length := by omega
    have fits : headerLen (controlWord F) ≤ F.length := by omega
    rw [decodeFrame_append_two two fits, decodeFrame_append_two two fits]
    cases dispatch p t23 (F.drop (headerLen (controlWord F))) with
    | error e => exact ⟨fun _ raised => raised, fun _ impossible => nomatch impossible⟩
    | ok msgs =>
      refine ⟨fun _ impossible => (nomatch impossible), fun f decoded => ?_⟩
      obtain rfl := Except.ok.inj decoded
      simp only [Except.map, assembledFrame_append_two two fits, and_self]

end Sys2Proof.Machine
end

section
/-! PROOFS. What DONE promises (46_frame_assembler.md R297, 43_dispatcher.md R207 to R211, 00_scope.md R10): the
records lie in the region in order and apart, each of at least 3 octets, so their number is bounded by the region's
length. -/

namespace Sys2Proof.Machine

/-! ## Records in order within bounds (R216) -/

/-- The records' lengths fit between the bounds they lie in. -/
theorem RecordsWithin.sum_len_le {lo hi : Nat} {rs : List Record} (h : RecordsWithin lo rs hi) :
    lo + (rs.map (·.len)).sum ≤ hi := by
  induction rs generalizing lo with
  | nil => exact h
  | cons r rs ih =>
    obtain ⟨start, _, rest⟩ := h
    have tail := ih rest
    rw [List.map_cons, List.sum_cons]
    omega

/-- A record takes at least 3 octets (R207). -/
theorem RecordsWithin.three_mul_length_le {lo hi : Nat} {rs : List Record} (h : RecordsWithin lo rs hi) :
    3 * rs.length ≤ (rs.map (·.len)).sum := by
  induction rs generalizing lo with
  | nil => exact Nat.zero_le _
  | cons r rs ih =>
    obtain ⟨_, three, rest⟩ := h
    have tail := ih rest
    rw [List.map_cons, List.sum_cons, List.length_cons]
    omega

/-- From a record on, the records lie past its end. -/
theorem RecordsWithin.drop_of_getElem? {lo hi k : Nat} {rs : List Record} {r : Record} (h : RecordsWithin lo rs hi)
    (found : rs[k]? = some r) : RecordsWithin (r.off + r.len) (rs.drop (k + 1)) hi := by
  induction rs generalizing lo k with
  | nil => cases found
  | cons first rs ih =>
    obtain ⟨_, _, rest⟩ := h
    cases k with
    | zero =>
      obtain rfl := Option.some.inj found
      exact rest
    | succ k => exact ih rest found

theorem RecordsWithin.end_le {lo hi k : Nat} {rs : List Record} {r : Record} (h : RecordsWithin lo rs hi)
    (found : rs[k]? = some r) : r.off + r.len ≤ hi :=
  Nat.le_of_add_right_le (h.drop_of_getElem? found).sum_len_le

theorem RecordsWithin.end_le_next {lo hi k : Nat} {rs : List Record} {a b : Record} (h : RecordsWithin lo rs hi)
    (found : rs[k]? = some a) (following : rs[k + 1]? = some b) : a.off + a.len ≤ b.off := by
  have rest := h.drop_of_getElem? found
  rw [List.drop_eq_getElem?_toList_append, following] at rest
  obtain ⟨apart, _, _⟩ := rest
  exact apart

/-! ## The statement -/

theorem phaseOk_of_done {s : State} (inv : s.Inv) (hp : s.phase = .done) :
    s.RegionOk ∧ RecordsWithin 0 s.msgq s.cur ∧ s.hdr.PresenceOk ∧ s.hdr.fcw = s.frameControlWord ∧ s.cur = s.rlen ∧
      s.fcs0 = s.fb.read (s.flen - 2) ∧ s.fcs1 = s.fb.read (s.flen - 1) ∧ s.errPos = 0 := by
  obtain ⟨_, _, promised⟩ := inv
  rwa [State.PhaseOk, hp] at promised

/-- Settles O58: the invariant's clause for DONE gives the division and the records' order; their count times 3 is at
most RLEN, and RLEN at most FRAME_MAX - 5. -/
theorem doneStateDividesTheFrame : Obligations.DoneStateDividesTheFrame := by
  unfold Obligations.DoneStateDividesTheFrame
  intro s inv hp
  obtain ⟨⟨headerMin, _, divided, _, _⟩, records, _, _, atEnd, _, _, _⟩ := phaseOk_of_done inv hp
  obtain ⟨⟨_, _, capacity⟩, _, _⟩ := inv
  rw [atEnd] at records
  have total := records.sum_len_le
  rw [Nat.zero_add] at total
  have bounded : s.mcnt ≤ s.params.msgqMax := by
    have three := records.three_mul_length_le
    rw [State.mcnt, Params.msgqMax, Nat.le_div_iff_mul_le (by decide)]
    omega
  exact ⟨divided, atEnd, fun _ _ => records.end_le, fun _ _ _ => records.end_le_next, total, bounded⟩

end Sys2Proof.Machine
end

section
/-! PROOFS. The phase transitions (46_frame_assembler.md R307, 60_exceptions.md R345): what each step of the engine
makes of PHASE in a sound state, and which host operations change it. -/

namespace Sys2Proof.Machine

/-! ## The engine (assumption 3, assumption 4) -/

/-- The state the engine moves from differs from the machine's in the list of turns at most. -/
theorem eq_withTurns_of_engineMovesFrom {s e : State} (h : s.EngineMovesFrom e) : ∃ ts, e = s.withTurns ts := by
  rcases h with ⟨_, rfl⟩ | ⟨ts, _, rfl⟩
  · exact ⟨e.hostTurns, rfl⟩
  · exact ⟨ts, rfl⟩

/-- A dispatch step keeps the phase or takes an error (R309, R218). -/
theorem dispStep_phase {s t : State} (hp : s.phase = .disp) (h : dispStep s = .next t) :
    t.phase = .disp ∨ t.phase = .fault := by
  rw [dispStep] at h
  split at h
  next e _ =>
    obtain rfl := Host.Outcome.next.inj h
    exact .inr rfl
  next r _ =>
    split at h
    next i _ =>
      rcases exec_next_cases h with ⟨_, _, rfl⟩ | ⟨_, _, _, _, _, _, phase, _⟩ | ⟨_, _, rfl⟩
      · exact .inr rfl
      · exact .inl (phase.trans hp)
      · exact .inl hp
    next =>
      obtain rfl := Host.Outcome.next.inj h
      exact .inl hp
    next =>
      obtain rfl := Host.Outcome.next.inj h
      exact .inl hp

theorem two_le_flen_of_disp {s : State} (inv : s.Inv) (hp : s.phase = .disp) : 2 ≤ s.flen := by
  obtain ⟨_, _, promised⟩ := inv
  rw [State.PhaseOk, hp] at promised
  obtain ⟨⟨_, _, divided, _, _⟩, _⟩ := promised
  omega

/-! ## The host (R301 to R306) -/

/-- The phase changes a host operation may make (R307). -/
def HostPhaseChange (s t : State) (x : HostTurn) : Prop :=
  (∃ o, x = .push o false ∧ s.phase = .idle ∧ s.flen < s.params.frameMax ∧ t.phase = .recv) ∨
  (∃ o, x = .push o true ∧ (s.phase = .idle ∨ s.phase = .recv) ∧ s.flen < s.params.frameMax ∧ t.phase = .hdr) ∨
  (x = .ack ∧ (s.phase = .done ∨ s.phase = .fault) ∧ t.phase = .idle) ∨
  (x = .reset ∧ t.phase = .idle)

theorem hostPush_phaseChange {s : State} {o : Octet} {last : Bool} (changed : (hostPush o last s).phase ≠ s.phase) :
    HostPhaseChange s (hostPush o last s) (.push o last) := by
  cases ready : s.inReady with
  | false => exact absurd (congrArg State.phase (hostPush_of_not_inReady ready o last)) changed
  | true =>
    obtain ⟨receiving, room⟩ := s.inReady_iff.mp ready
    rw [hostPush_of_inReady ready] at changed ⊢
    cases last with
    | true => exact .inr (.inl ⟨o, rfl, receiving, room, rfl⟩)
    | false =>
      have idle := receiving.resolve_right fun recv => changed recv.symm
      exact .inl ⟨o, rfl, idle, room, rfl⟩

theorem hostAck_phaseChange {s : State} (changed : (hostAck s).phase ≠ s.phase) :
    HostPhaseChange s (hostAck s) .ack := by
  by_cases finished : s.phase = .done ∨ s.phase = .fault
  · rw [hostAck_of_finished finished]
    exact .inr (.inr (.inl ⟨rfl, finished, rfl⟩))
  · exact absurd (congrArg State.phase (hostAck_of_not_finished finished)) changed

theorem hostCfgwr_phase (s : State) (v : Bool) : (hostCfgwr v s).phase = s.phase := by
  rw [hostCfgwr]
  split <;> rfl

theorem hostTurn_phaseChange {s : State} {x : HostTurn} (changed : (hostTurn x s).phase ≠ s.phase) :
    HostPhaseChange s (hostTurn x s) x := by
  cases x with
  | pass | read r => exact absurd rfl changed
  | cfgwr v => exact absurd (hostCfgwr_phase s v) changed
  | push o last => exact hostPush_phaseChange changed
  | ack => exact hostAck_phaseChange changed
  | reset => exact .inr (.inr (.inr ⟨rfl, rfl⟩))

/-! ## The statement -/

/-- Settles O54: the engine's turn phase by phase, where the invariant gives FINSTEP its two octets; the host's by
operation. -/
theorem phaseTransitionsAsTabled : Obligations.PhaseTransitionsAsTabled := by
  unfold Obligations.PhaseTransitionsAsTabled
  refine fun s t inv answer => ⟨fun e moves => ?engine, fun x ts first notPass changed => ?host⟩
  case host =>
    obtain rfl := Host.Outcome.next.inj ((step_hostTurn first notPass).symm.trans answer)
    exact hostTurn_phaseChange (s := s.withTurns ts) changed
  case engine =>
    rw [step_eq_engineTurn moves] at answer
    obtain ⟨ts, rfl⟩ := eq_withTurns_of_engineMovesFrom moves
    refine ⟨fun hp => ?waiting, fun hp => ?header, fun hp left => ?dispatch, fun hp atEnd => ?finish⟩
    case waiting =>
      exact (Host.Outcome.next.inj ((engineTurn_of_waiting (s := s.withTurns ts) hp).symm.trans answer)).symm
    case header =>
      rw [engineTurn_of_hdr (s := s.withTurns ts) hp] at answer
      rcases hdrStep_cases (s := s.withTurns ts) hp with ⟨short, taken⟩ | ⟨long, closed⟩
      · obtain rfl := Host.Outcome.next.inj (taken.symm.trans answer)
        exact ⟨iff_of_true rfl short, fun noFault => absurd rfl noFault⟩
      · obtain rfl := Host.Outcome.next.inj (closed.symm.trans answer)
        exact ⟨iff_of_false Phase.noConfusion long, fun _ => rfl⟩
    case dispatch =>
      rw [engineTurn_of_region_left (s := s.withTurns ts) hp left] at answer
      exact dispStep_phase (s := s.withTurns ts) hp answer
    case finish =>
      have two : 2 ≤ s.flen := two_le_flen_of_disp inv hp
      rw [engineTurn_of_region_end (s := s.withTurns ts) hp atEnd,
        finStep_of_fits (s := s.withTurns ts) two] at answer
      obtain rfl := Host.Outcome.next.inj answer
      rfl

end Sys2Proof.Machine
end

section
/-! PROOFS. Taking an error (60_exceptions.md R323, R331): a frame too short for its header takes FrameTooShort, and fault
entry leaves the error and the frame, and waits. -/

namespace Sys2Proof.Machine

/-- Settles O24: the header phase's step is HDRSTEP, which fails R292's test. -/
theorem shortFrameTakesFrameTooShort : Obligations.ShortFrameTakesFrameTooShort := by
  unfold Obligations.ShortFrameTakesFrameTooShort
  intro s engineNext hp short
  rw [step_eq_engineTurn (.inl ⟨engineNext, rfl⟩), engineTurn_of_hdr hp, hdrStep_of_short short]

/-- In FAULT the engine waits (R345, assumption 4). -/
theorem step_faultEntry {s : State} (engineNext : s.EngineNext) (e : DecodeError) (p : Nat) :
    step (s.faultEntry e p) = .next (s.faultEntry e p) := by
  have inFault : (s.faultEntry e p).phase = .fault := s.faultEntry_phase e p
  rw [step_eq_engineTurn (s := s.faultEntry e p) (.inl ⟨engineNext, rfl⟩),
    engineTurn_of_waiting (.inr (.inr (.inr inFault)))]

/-- Settles O48: fault entry writes ERR and PHASE, each register listed then reads its cleared value, and the engine
waits. -/
theorem faultEntryLeavesOnlyTheError : Obligations.FaultEntryLeavesOnlyTheError := by
  unfold Obligations.FaultEntryLeavesOnlyTheError
  refine fun s e p => ⟨faultEntry_eq_afterFault s e p, rfl, rfl, rfl, ?readZero, fun _ => rfl, s.faultEntry_hc e p,
    s.faultEntry_fb e p, s.faultEntry_flen e p, s.faultEntry_cfgT23 e p, fun engineNext => step_faultEntry engineNext e p⟩
  case readZero =>
    exact (List.map_inj_left (f := hostRead (s.faultEntry e p)) (g := fun _ => some (.num 0))).mp rfl

end Sys2Proof.Machine
end

section
/-! PROOFS. The invariant is kept by every step (10_state.md R50 to R57, 46_frame_assembler.md R296, R301 to R309,
60_exceptions.md R331). What a phase promises is read off and built up phase by phase; each engine step and each host
operation then keeps the invariant by what it writes. -/

namespace Sys2Proof.Machine

/-! ## Cleared registers (R331, R55) -/

/-- Cleared results, register by register. -/
theorem resultsCleared_iff (s : State) : s.ResultsCleared ↔
    s.hc = 0 ∧ s.cur = 0 ∧ s.hdr = HeaderRegs.cleared ∧ s.rlen = 0 ∧ s.msgq = [] ∧ s.fcs0 = 0 ∧ s.fcs1 = 0 := by
  cases s
  simp only [State.ResultsCleared, State.clearResults, State.mk.injEq, true_and, and_true, eq_comm]

/-! ## Records in order within bounds (R216) -/

theorem RecordsWithin.mono {lo hi hi' : Nat} {rs : List Record} (h : RecordsWithin lo rs hi) (le : hi ≤ hi') :
    RecordsWithin lo rs hi' := by
  induction rs generalizing lo with
  | nil => exact h.trans le
  | cons r rs ih =>
    obtain ⟨start, three, rest⟩ := h
    exact ⟨start, three, ih rest⟩

/-- A record that starts where the others end lies in order after them. -/
theorem RecordsWithin.append {lo : Nat} {rs : List Record} {r : Record} (h : RecordsWithin lo rs r.off)
    (three : 3 ≤ r.len) : RecordsWithin lo (rs ++ [r]) (r.off + r.len) := by
  induction rs generalizing lo with
  | nil => exact ⟨h, three, le_rfl⟩
  | cons first rs ih =>
    obtain ⟨start, firstThree, rest⟩ := h
    exact ⟨start, firstThree, ih rest⟩

/-! ## The invariant by phase -/

section
variable {s : State}

theorem errKind_eq_none_of_inv (inv : s.Inv) (notFault : s.phase ≠ .fault) : s.errKind = none := by
  obtain ⟨_, kind, _⟩ := inv
  exact kind.mpr notFault

/-- Before the header step every result register and ERR.POS are as after reset. -/
theorem resultsCleared_of_inv (inv : s.Inv) (hp : s.phase = .idle ∨ s.phase = .recv ∨ s.phase = .hdr) :
    s.ResultsCleared ∧ s.errPos = 0 := by
  obtain ⟨_, _, promised⟩ := inv
  rcases hp with hp | hp | hp <;>
  · rw [State.PhaseOk, hp] at promised
    obtain ⟨_, cleared⟩ := promised
    exact cleared

theorem flen_pos_of_hdr (inv : s.Inv) (hp : s.phase = .hdr) : 0 < s.flen := by
  obtain ⟨_, _, promised⟩ := inv
  rw [State.PhaseOk, hp] at promised
  obtain ⟨held, _⟩ := promised
  exact held

theorem phaseOk_of_disp (inv : s.Inv) (hp : s.phase = .disp) :
    s.RegionOk ∧ RecordsWithin 0 s.msgq s.cur ∧ s.hdr.PresenceOk ∧ s.hdr.fcw = s.frameControlWord ∧
      s.fcs0 = 0 ∧ s.fcs1 = 0 ∧ s.errPos = 0 := by
  obtain ⟨_, _, promised⟩ := inv
  rwa [State.PhaseOk, hp] at promised

/-- The invariant looks at neither the host's turns nor CFG. -/
theorem inv_of_turns_cfg (inv : s.Inv) (ts : List HostTurn) (v : Bool) :
    ({ s with hostTurns := ts, cfgT23 := v } : State).Inv := by
  obtain ⟨buffer, kind, promised⟩ := inv
  refine ⟨buffer, kind, ?_⟩
  rw [State.PhaseOk] at promised ⊢
  cases hp : s.phase with
  | idle | recv | hdr | fault => simpa only [hp, resultsCleared_iff] using promised
  | disp | done =>
    simp only [hp] at promised ⊢
    exact promised

theorem inv_withTurns (inv : s.Inv) (ts : List HostTurn) : (s.withTurns ts).Inv := inv_of_turns_cfg inv ts s.cfgT23

/-! ## The engine's steps -/

/-- Fault entry in a frame of at least one octet leaves a sound state (R331). -/
theorem faultEntry_inv (inv : s.Inv) (held : 0 < s.flen) (e : DecodeError) (p : Nat) : (s.faultEntry e p).Inv := by
  obtain ⟨buffer, _, _⟩ := inv
  exact ⟨buffer, iff_of_false (Option.some_ne_none e) fun notFault => notFault rfl, held, rfl⟩

/-! ### HDRSTEP -/

theorem carriesAddress_iff (m : AddrMode) : carriesAddress m = true ↔ AddrModePresent m := by
  simp [carriesAddress]

theorem carriesSourcePan_iff (pic : Bool) (m : AddrMode) :
    carriesSourcePan pic m = true ↔ AddrModePresent m ∧ pic = false := by
  simp [carriesSourcePan, carriesAddress_iff]

/-- The walk sets each presence bit by its mode and PIC, and clears what is absent (R42 to R45). -/
theorem presenceOk_headerWalked (s : State) (w : BitVec 16) : (s.headerWalked w).hdr.PresenceOk :=
  ⟨carriesAddress_iff _, rfl, carriesSourcePan_iff _ _, carriesAddress_iff _,
    fun absent => ⟨if_neg (Bool.eq_false_iff.mp absent), if_neg (Bool.eq_false_iff.mp absent)⟩,
    fun absent => if_neg (Bool.eq_false_iff.mp absent), fun absent => if_neg (Bool.eq_false_iff.mp absent)⟩

theorem destinationLength_le (m : AddrMode) : destinationLength m ≤ 10 := by cases m <;> decide

theorem sourceLength_le (pic : Bool) (m : AddrMode) : sourceLength pic m ≤ 10 := by cases pic <;> cases m <;> decide

/-- The longest header: both addresses long, and two PAN identifiers (R190). -/
theorem headerLen_le (w : BitVec 16) : headerLen w ≤ 23 := by
  have destination := destinationLength_le (decodeWord w).dam
  have source := sourceLength_le (decodeWord w).pic (decodeWord w).sam
  rw [headerLen]
  omega

/-- Closing the header divides the frame at the cursor and opens an empty queue (R189, R308). -/
theorem closeHeader_inv {t : State} (inv : s.Inv) (hp : s.phase = .hdr)
    (fits : headerLen s.frameControlWord + 2 ≤ s.flen) (same : SameButHeader s t)
    (cursor : t.hc = headerLen s.frameControlWord) (presence : t.hdr.PresenceOk)
    (word : t.hdr.fcw = s.frameControlWord) : (closeHeader t).Inv := by
  obtain ⟨cleared, errPos⟩ := resultsCleared_of_inv inv (.inr (.inr hp))
  obtain ⟨_, _, _, _, _, fcs0, fcs1⟩ := (resultsCleared_iff s).mp cleared
  have noError := errKind_eq_none_of_inv inv (by rw [hp]; decide)
  obtain ⟨buffer, _, _⟩ := inv
  obtain ⟨params, _, _, fb, flen, _, _, _, _, sameFcs0, sameFcs1, errKind, sameErrPos⟩ := same
  have sameBuffer : (closeHeader t).BufferOk := by
    rwa [State.BufferOk, closeHeader_fb, closeHeader_flen, closeHeader_params, fb, flen, params]
  have sameWord : (closeHeader t).frameControlWord = s.frameControlWord := by
    rw [State.frameControlWord, closeHeader_fb, fb, State.frameControlWord]
  have region : (closeHeader t).RegionOk := by
    have least := three_le_headerLen s.frameControlWord
    have most := headerLen_le s.frameControlWord
    simp only [State.RegionOk, closeHeader_hdr, closeHeader_flen, closeHeader_rlen, closeHeader_cur, closeHeader_hc,
      and_true]
    omega
  exact ⟨sameBuffer, iff_of_true (errKind.trans noError) Phase.noConfusion, region, Nat.zero_le 0, presence,
    word.trans sameWord.symm, sameFcs0.trans fcs0, sameFcs1.trans fcs1, sameErrPos.trans errPos⟩

theorem hdrStep_keeps_inv {t : State} (inv : s.Inv) (hp : s.phase = .hdr) (answer : hdrStep s = .next t) : t.Inv := by
  rcases hdrStep_cases hp with ⟨_, taken⟩ | ⟨long, closed⟩
  · obtain rfl := Host.Outcome.next.inj (taken.symm.trans answer)
    exact faultEntry_inv inv (flen_pos_of_hdr inv hp) .frameTooShort s.flen
  · obtain rfl := Host.Outcome.next.inj (closed.symm.trans answer)
    exact closeHeader_inv inv hp (by omega) (sameButHeader_headerWalked s _) (s.headerWalked_hc _)
      (presenceOk_headerWalked s _) rfl

/-! ### DISPSTEP -/

/-- What a row can do in the dispatch phase: take an error, or append a record that starts at the cursor and ends
inside the region (R207, R210). -/
theorem exec_next_cases_of_disp {i : Instr} {t : State} (hp : s.phase = .disp) (h : exec i s = .next t) :
    (∃ e pos, t = s.faultEntry e pos) ∨
    ∃ r : Record, r.off = s.cur ∧ 3 ≤ r.len ∧ s.cur + r.len ≤ s.rlen ∧ t = s.appendRecord r := by
  cases hk : i.kind? with
  | none =>
    have outside : s.phase ≠ .hdr := by rw [hp]; decide
    cases (exec_row_outside hk outside).symm.trans h
  | some k =>
    obtain ⟨lf, f, delivers⟩ := deliver_of_kind? hk s.params
    rw [exec_message delivers] at h
    rcases dispatchMessage_cases s k lf f with ⟨_, stops⟩ | ⟨_, _, e, _, answer⟩ | ⟨_, left, n, hlen, answer⟩
    · cases stops.symm.trans h
    · exact .inl ⟨e, _, (Host.Outcome.next.inj (answer.symm.trans h)).symm⟩
    · obtain ⟨three, room⟩ := msgLen_ok_bounds hlen
      exact .inr ⟨_, rfl, three, by simp only; omega, (Host.Outcome.next.inj (answer.symm.trans h)).symm⟩

/-- What DISPSTEP can do with a region octet left: take an error, skip an octet, or append a record (R309). -/
theorem dispStep_next_cases {t : State} (hp : s.phase = .disp) (left : s.cur < s.rlen)
    (inFrame : s.hdr.hlen + s.rlen ≤ s.flen) (h : dispStep s = .next t) :
    (∃ e pos, t = s.faultEntry e pos) ∨ t = s.skipFiller ∨
    ∃ r : Record, r.off = s.cur ∧ 3 ≤ r.len ∧ s.cur + r.len ≤ s.rlen ∧ t = s.appendRecord r := by
  simp only [dispStep, fetchRegion_of_fits inFrame left] at h
  cases decoded : decodeRegion s.params s.cfgT23 (s.bufferAt 0 s.rem) with
  | instr i =>
    simp only [decoded] at h
    exact (exec_next_cases_of_disp hp h).imp_right .inr
  | filler o =>
    simp only [decoded] at h
    exact .inr (.inl (Host.Outcome.next.inj h).symm)
  | endOfRegion =>
    rw [region_eq_cons left, decodeRegion] at decoded
    split at decoded <;> cases decoded

/-- In the dispatch phase the cursor may move inside the region, over records that end by it. -/
theorem inv_of_cursorMoved (inv : s.Inv) (hp : s.phase = .disp) {c : Nat} {q : List Record} (inRegion : c ≤ s.rlen)
    (records : RecordsWithin 0 q c) : ({ s with cur := c, msgq := q } : State).Inv := by
  obtain ⟨⟨least, most, divided, _, cursor⟩, _, rest⟩ := phaseOk_of_disp inv hp
  obtain ⟨buffer, kind, _⟩ := inv
  refine ⟨buffer, kind, ?_⟩
  simp only [State.PhaseOk, hp]
  exact ⟨⟨least, most, divided, inRegion, cursor⟩, records, rest⟩

theorem dispStep_keeps_inv {t : State} (inv : s.Inv) (hp : s.phase = .disp) (left : s.cur < s.rlen)
    (answer : dispStep s = .next t) : t.Inv := by
  obtain ⟨⟨_, _, divided, _, _⟩, records, _⟩ := phaseOk_of_disp inv hp
  rcases dispStep_next_cases hp left (by omega) answer with ⟨e, pos, rfl⟩ | rfl | ⟨r, atCursor, three, room, rfl⟩
  · exact faultEntry_inv inv (by omega) e pos
  · exact inv_of_cursorMoved inv hp left (records.mono (Nat.le_succ _))
  · have appended := RecordsWithin.append (atCursor.symm ▸ records) three
    rw [atCursor] at appended
    exact inv_of_cursorMoved inv hp room appended

/-! ### FINSTEP and the turn -/

/-- At the region's end FINSTEP stores the FCS and keeps the rest (R296). -/
theorem finStep_keeps_inv {t : State} (inv : s.Inv) (hp : s.phase = .disp) (atEnd : s.cur = s.rlen)
    (answer : finStep s = .next t) : t.Inv := by
  have noError := errKind_eq_none_of_inv inv (by rw [hp]; decide)
  rw [finStep_of_fits (two_le_flen_of_disp inv hp)] at answer
  obtain rfl := Host.Outcome.next.inj answer
  obtain ⟨region, records, presence, word, _, _, errPos⟩ := phaseOk_of_disp inv hp
  obtain ⟨buffer, _, _⟩ := inv
  exact ⟨buffer, iff_of_true noError Phase.noConfusion, region, records, presence, word, atEnd, rfl, rfl, errPos⟩

theorem engineTurn_keeps_inv {t : State} (inv : s.Inv) (answer : engineTurn s = .next t) : t.Inv := by
  cases hp : s.phase with
  | idle | recv | done | fault =>
    rw [engineTurn_of_waiting (by simp [hp])] at answer
    obtain rfl := Host.Outcome.next.inj answer
    exact inv
  | hdr => exact hdrStep_keeps_inv inv hp (engineTurn_of_hdr hp ▸ answer)
  | disp =>
    obtain ⟨⟨_, _, _, inRegion, _⟩, _⟩ := phaseOk_of_disp inv hp
    rcases Nat.lt_or_eq_of_le inRegion with left | atEnd
    · exact dispStep_keeps_inv inv hp left (engineTurn_of_region_left hp left ▸ answer)
    · exact finStep_keeps_inv inv hp atEnd (engineTurn_of_region_end hp atEnd ▸ answer)

/-! ## The host's operations -/

/-- An accepted push lists no address but FLEN, which it counts, and touches no result register (R301). -/
theorem hostPush_inv (inv : s.Inv) (o : Octet) (last : Bool) : (hostPush o last s).Inv := by
  cases ready : s.inReady with
  | false => rwa [hostPush_of_not_inReady ready]
  | true =>
    obtain ⟨receiving, room⟩ := s.inReady_iff.mp ready
    have noError := errKind_eq_none_of_inv inv (by rcases receiving with hp | hp <;> rw [hp] <;> decide)
    obtain ⟨cleared, errPos⟩ := resultsCleared_of_inv inv (receiving.imp_right .inl)
    obtain ⟨⟨canonical, below, _⟩, _, _⟩ := inv
    rw [hostPush_of_inReady ready]
    have buffer : ∀ c ∈ s.fb.write s.flen o, c.1 < s.flen + 1 := by
      intro c listed
      rcases Memory.mem_write listed with rfl | old
      · exact Nat.lt_succ_self s.flen
      · exact Nat.lt_succ_of_lt (below c old)
    have stillCleared (p : Phase) :
        ({ s with fb := s.fb.write s.flen o, flen := s.flen + 1, phase := p } : State).ResultsCleared :=
      (resultsCleared_iff _).mpr ((resultsCleared_iff s).mp cleared)
    cases last <;>
      exact ⟨⟨Memory.write_wf canonical s.flen o, buffer, room⟩, iff_of_true noError Phase.noConfusion,
        Nat.succ_pos s.flen, stillCleared _, errPos⟩

theorem hostCfgwr_inv (inv : s.Inv) (v : Bool) : (hostCfgwr v s).Inv := by
  by_cases hp : s.phase = .idle
  · rw [hostCfgwr_of_idle hp]
    exact inv_of_turns_cfg inv s.hostTurns v
  · rwa [hostCfgwr_of_not_idle hp]

/-- The release is the reset state but for CFG and the host's turns (R305); its buffer is empty by assumption 6. -/
theorem hostAck_inv (inv : s.Inv) : (hostAck s).Inv := by
  by_cases hp : s.phase = .done ∨ s.phase = .fault
  · rw [hostAck_of_finished hp]
    exact inv_of_turns_cfg (resetWith_inv s.params) s.hostTurns s.cfgT23
  · rwa [hostAck_of_not_finished hp]

theorem hostTurn_keeps_inv (inv : s.Inv) (x : HostTurn) : (hostTurn x s).Inv := by
  cases x with
  | pass | read r => exact inv
  | push o last => exact hostPush_inv inv o last
  | cfgwr v => exact hostCfgwr_inv inv v
  | ack => exact hostAck_inv inv
  | reset => exact inv_withTurns (resetWith_inv s.params) s.hostTurns

end

/-! ## The statement -/

/-- Settles O57: the turn is the engine's or a host operation, from the state with that turn dropped from the list. -/
theorem invariantKeptByStep : Obligations.InvariantKeptByStep := by
  unfold Obligations.InvariantKeptByStep
  intro s t inv answer
  cases listed : s.hostTurns with
  | nil => exact engineTurn_keeps_inv inv (step_eq_engineTurn (.inl ⟨listed, rfl⟩) ▸ answer)
  | cons x ts =>
    by_cases pass : x = .pass
    · subst pass
      rw [step_eq_engineTurn (.inr ⟨ts, listed, rfl⟩)] at answer
      exact engineTurn_keeps_inv (inv_withTurns inv ts) answer
    · obtain rfl := Host.Outcome.next.inj ((step_hostTurn listed pass).symm.trans answer)
      exact hostTurn_keeps_inv (inv_withTurns inv ts) x

end Sys2Proof.Machine
end

section
/-! PROOFS. SLICEOCT and the field readers (40_primitives.md R143 to R150): the little order reverses the octets once, so the word
of a little slice read in the big order is the little-endian word of the octets themselves. -/

namespace Sys2Proof.Machine

/-! ## SLICEOCT (R143) -/

theorem sliceOct_of_short {data : List Octet} {start count : Nat} (short : data.length < start + count)
    (order : ByteOrder) : sliceOct data start count order = .error .outOfRange := if_pos short

section
variable {data : List Octet} {start count : Nat} (fits : start + count ≤ data.length)
include fits

theorem sliceOct_big_of_fits : sliceOct data start count .big = .ok ((data.drop start).take count) :=
  if_neg (Nat.not_lt.mpr fits)

theorem sliceOct_little_of_fits :
    sliceOct data start count .little = .ok ((data.drop start).take count).reverse :=
  if_neg (Nat.not_lt.mpr fits)

end

/-! ## The value of reversed octets (R145) -/

/-- A sequence taken whole gives the word of all its octets (R146). -/
theorem numdecUnsigned_whole {os : List Octet} {w : Nat} (size : os.length = w) (order : ByteOrder) :
    numdecUnsigned os w order = .ok (BitVec.ofNat (8 * w) (orderedValue order os)) := by
  rw [numdecUnsigned_eq_oct2bits, oct2bits_of_fits size.ge, List.take_of_length_le size.le]

/-- Reversed octets read in the big order are the octets read in the little order (R145). -/
theorem numdecUnsigned_reverse_big {os : List Octet} {w : Nat} (size : os.length = w) :
    numdecUnsigned os.reverse w .big = numdecUnsigned os w .little := by
  rw [numdecUnsigned_whole size, numdecUnsigned_whole (os.length_reverse.trans size), orderedValue, orderedValue,
    BE_reverse]

/-- Reversed octets read in the little order are the octets read in the big order (R145). -/
theorem numdecUnsigned_reverse_little {os : List Octet} {w : Nat} (size : os.length = w) :
    numdecUnsigned os.reverse w .little = numdecUnsigned os w .big := by
  rw [← numdecUnsigned_reverse_big (os.length_reverse.trans size), List.reverse_reverse]

/-- Settles O11: the little slice of the whole source is its reverse, and either order of the reverse is the other order of
the source. -/
theorem byteReversalIsAppliedOnce : Obligations.ByteReversalIsAppliedOnce := by
  unfold Obligations.ByteReversalIsAppliedOnce
  refine ⟨fun data start count => ⟨sliceOct_of_short, fun fits => ?slice⟩, fun S T sliced => ?composition⟩
  case slice => exact ⟨sliceOct_big_of_fits fits, sliceOct_little_of_fits fits⟩
  case composition =>
    have whole : sliceOct S 0 S.length .little = .ok S.reverse := by
      rw [sliceOct_little_of_fits (Nat.zero_add _).le, List.drop_zero, List.take_length]
    obtain rfl : S.reverse = T := Except.ok.inj (whole.symm.trans sliced)
    exact ⟨BE_reverse S, rfl, numdecUnsigned_reverse_big rfl, numdecUnsigned_reverse_little rfl⟩

/-! ## The field readers (R150) -/

/-- A field inside the octets is the unsigned little-endian number at its offset (R146, R150). -/
theorem numdecUnsigned_drop_eq_fieldW {r : List Octet} {off w : Nat} (inside : off + w ≤ r.length) :
    numdecUnsigned (r.drop off) w .little = .ok (fieldW r off w) := by
  have fits : w ≤ (r.drop off).length := by rw [List.length_drop]; omega
  rw [numdecUnsigned_eq_oct2bits, oct2bits_of_fits fits, orderedValue, fieldW]

/-- Settles O15: each reader takes the little-endian word of its octets, which is also the big-endian word of their little
slice, or the octets themselves. -/
theorem fieldReaderIsSliceThenNumber : Obligations.FieldReaderIsSliceThenNumber := by
  unfold Obligations.FieldReaderIsSliceThenNumber
  intro r off w inside
  have number := numdecUnsigned_drop_eq_fieldW inside
  refine ⟨⟨_, sliceOct_little_of_fits inside, ?word⟩, ?signed, sliceOct_big_of_fits inside, ?float⟩
  case word =>
    have size : ((r.drop off).take w).length = w := by rw [List.length_take, List.length_drop]; omega
    rw [numdecUnsigned_reverse_big size, numdecUnsigned_whole size, orderedValue, fieldW]
  case signed => rw [numdecSigned, number, Except.map, fieldS]
  case float =>
    rintro rfl
    exact number

end Sys2Proof.Machine
end

section
/-! PROOFS. HeaderLen (42_mac_header.md R190, 30_encoding.md R105): what each mode adds by its code, and the words that attain the
ten values. -/

namespace Sys2Proof.Machine

/-! ## The octets a mode adds, by its code (R105, R162) -/

theorem destinationLength_addrModeOf (v : BitVec 2) :
    destinationLength (addrModeOf v) = if v.toNat = 2 then 4 else if v.toNat = 3 then 10 else 0 := by
  decide +revert

theorem sourceLength_addrModeOf (pic : Bool) (v : BitVec 2) : sourceLength pic (addrModeOf v) =
    if v.toNat < 2 then 0 else (if pic then 0 else 2) + (if v.toNat = 2 then 2 else 8) := by
  decide +revert

/-- HeaderLen by arithmetic on the word's value (R190). -/
theorem headerLen_eq (w : BitVec 16) : headerLen w = 3
    + (if w.toNat / 1024 % 4 = 2 then 4 else if w.toNat / 1024 % 4 = 3 then 10 else 0)
    + (if w.toNat / 16384 < 2 then 0
       else (if w.toNat / 64 % 2 = 1 then 0 else 2) + (if w.toNat / 16384 = 2 then 2 else 8)) := by
  have destinationCode : (wordBits w 11 10).toNat = w.toNat / 1024 % 4 := wordBits_toNat w 11 10
  have sourceCode : (wordBits w 15 14).toNat = w.toNat / 16384 := wordBits_toNat_of_top w le_rfl
  have compression : w.getLsbD 6 = true ↔ w.toNat / 64 % 2 = 1 := getLsbD_iff_div w 6
  simp only [headerLen, decodeWord, destinationLength_addrModeOf, sourceLength_addrModeOf, destinationCode, sourceCode,
    compression]

/-! ## The values (R190) -/

theorem destinationLength_mem (m : AddrMode) : destinationLength m ∈ [0, 4, 10] := by cases m <;> decide

theorem sourceLength_mem (pic : Bool) (m : AddrMode) : sourceLength pic m ∈ [0, 2, 4, 8, 10] := by
  cases m with
  | noAddress | reserved => exact List.mem_cons_self
  | short16 | long64 => cases pic <;> decide

/-- The values HeaderLen takes, in ascending order (R190). -/
def headerLengths : List Nat := [3, 5, 7, 9, 11, 13, 15, 17, 21, 23]

theorem headerLen_mem (w : BitVec 16) : headerLen w ∈ headerLengths := by
  have sums : ∀ d ∈ [0, 4, 10], ∀ s ∈ [0, 2, 4, 8, 10], 3 + d + s ∈ headerLengths := by decide
  exact sums _ (destinationLength_mem _) _ (sourceLength_mem _ _)

/-- Frame-control words that attain the ten values, in the same order: no address; a short or a long source with PIC set or
clear, after no, a short or a long destination. -/
def headerLengthWords : List (BitVec 16) :=
  [0x0000, 0x8040, 0x8000, 0x8840, 0xc040, 0xc000, 0xc840, 0xc800, 0xcc40, 0xcc00]

theorem map_headerLen_headerLengthWords : headerLengthWords.map headerLen = headerLengths := by decide

/-- Settles O25: the formula reads the codes of the modes; its sums are among the ten values, and a word attains each. -/
theorem headerLengthTable : Obligations.HeaderLengthTable := by
  unfold Obligations.HeaderLengthTable
  refine ⟨headerLen_eq, fun n => ⟨?taken, fun listed => ?attained⟩⟩
  case taken =>
    rintro ⟨w, rfl⟩
    exact headerLen_mem w
  case attained =>
    change n ∈ headerLengths at listed
    rw [← map_headerLen_headerLengthWords, List.mem_map] at listed
    obtain ⟨w, _, length⟩ := listed
    exact ⟨w, length⟩

end Sys2Proof.Machine
end

section
/-! PROOFS. A step never stops (46_frame_assembler.md R307 to R309, 70_reset_and_hazards.md section 4): the engine asks a row to
run only within its own step, where the row takes an error or completes. -/

namespace Sys2Proof.Machine

/-- A region decodes to message rows only, never to a row of the frame-control word (R202, R210). -/
theorem kind?_ne_none_of_decodeRegion {p : Params} {t23 : Bool} {r : List Octet} {i : Instr}
    (decoded : decodeRegion p t23 r = .instr i) : i.kind? ≠ none := by
  cases r with
  | nil => cases decoded
  | cons t body =>
    rw [decodeRegion] at decoded
    split at decoded
    next => cases decoded
    next k _ =>
      obtain rfl := Decoded.instr.inj decoded
      rw [kind?_decodeMessage]
      exact Option.some_ne_none k

/-- A message row in the dispatch phase, with a region octet left, takes its length's error or appends its record (R210). -/
theorem exec_answers_of_dispatchEnabled {s : State} {i : Instr} (message : i.kind? ≠ none) (enabled : s.DispatchEnabled) :
    ∃ t, exec i s = .next t := by
  obtain ⟨k, hk⟩ := Option.ne_none_iff_exists'.mp message
  obtain ⟨lf, f, delivers⟩ := deliver_of_kind? hk s.params
  rw [exec_message delivers]
  rcases dispatchMessage_cases s k lf f with ⟨notEnabled, _⟩ | ⟨_, _, _, _, taken⟩ | ⟨_, _, _, _, appended⟩
  · exact absurd enabled notEnabled
  · exact ⟨_, taken⟩
  · exact ⟨_, appended⟩

theorem hdrStep_answers {s : State} (hp : s.phase = .hdr) : ∃ t, hdrStep s = .next t := by
  rcases hdrStep_cases hp with ⟨_, taken⟩ | ⟨_, closed⟩
  · exact ⟨_, taken⟩
  · exact ⟨_, closed⟩

/-- DISPSTEP takes the fetch's error, runs the decoded row, or skips an octet (R309). -/
theorem dispStep_answers {s : State} (enabled : s.DispatchEnabled) : ∃ t, dispStep s = .next t := by
  rw [dispStep]
  cases s.fetchRegion with
  | error e => exact ⟨_, rfl⟩
  | ok r =>
    dsimp only
    cases decoded : decodeRegion s.params s.cfgT23 r with
    | instr i => exact exec_answers_of_dispatchEnabled (kind?_ne_none_of_decodeRegion decoded) enabled
    | filler | endOfRegion => exact ⟨_, rfl⟩

theorem finStep_answers (s : State) : ∃ t, finStep s = .next t := by
  rcases Nat.lt_or_ge s.flen 2 with short | two
  · exact ⟨_, finStep_of_short short⟩
  · exact ⟨_, finStep_of_fits two⟩

/-- The engine takes the step its phase enables, or waits (R307, R345; assumption 4). -/
theorem engineTurn_answers (s : State) : ∃ t, engineTurn s = .next t := by
  cases hp : s.phase with
  | idle | recv | done | fault => exact ⟨s, engineTurn_of_waiting (by simp [hp])⟩
  | hdr =>
    rw [engineTurn_of_hdr hp]
    exact hdrStep_answers hp
  | disp =>
    rcases Nat.lt_trichotomy s.cur s.rlen with left | atEnd | passed
    · rw [engineTurn_of_region_left hp left]
      exact dispStep_answers ⟨hp, left⟩
    · rw [engineTurn_of_region_end hp atEnd]
      exact finStep_answers s
    · exact ⟨s, engineTurn_of_region_passed hp passed⟩

/-- Settles O55: the step is a host operation, which always answers, or the engine's turn. -/
theorem stepAlwaysAnswersNext : Obligations.StepAlwaysAnswersNext := by
  unfold Obligations.StepAlwaysAnswersNext
  intro s
  cases listed : s.hostTurns with
  | nil =>
    rw [step_eq_engineTurn (.inl ⟨listed, rfl⟩)]
    exact engineTurn_answers s
  | cons x ts =>
    by_cases pass : x = .pass
    · subst pass
      rw [step_eq_engineTurn (.inr ⟨ts, listed, rfl⟩)]
      exact engineTurn_answers _
    · exact ⟨_, step_hostTurn listed pass⟩

end Sys2Proof.Machine
end
